-- ==== Sys2Proof/Word.lean ====
section
/-!
DEFINITION. The widths of the codec core's ports (spec/10_state.md R22, spec/00_scope.md R7).
Every value is unsigned and bit 0 is the least significant bit of every port (R8, R9, R45).
-/

namespace Sys2Proof

/-- One byte: `sp_lead`, or one byte of a packed sequence (R22, R41). -/
abbrev Byte := BitVec 8

/-- A 1-bit error output: `sp_err`, `enc_err`, `dec_err` (R22, decision D4). -/
abbrev Bit := BitVec 1

/-- A size output, `SIZE_W` = 8 bits wide: `sp_size`, `enc_len` (R7, R22, decision D3). -/
abbrev SizeWord := BitVec 8

/-- A code point port, 64 bits: `enc_cp`, `dec_cp` (R22). -/
abbrev CodeWord := BitVec 64

/-- A packed-sequence port, 32 bits: `enc_packed`, `dec_packed` (R22). -/
abbrev PackedWord := BitVec 32

end Sys2Proof
end

