-- ==== Sys2Proof/Config.lean ====
section
/-!
DEFINITION. What an implementation of the codec core fixes, and the free values of its outputs
where the spec leaves them unspecified. The build parameter's VALUE for this hardware stands in
Sys2Proof/Decode.lean (`pDecHigh`). `T_SETTLE` is OPEN and has no constant here: the model has no time
and only orders "driven" before "settled" before "sampled" (R7, R243, R248; log entry 4).
-/

namespace Sys2Proof

/-- The settings of the build parameter `P_DEC_HIGH`: what the Decoder does with the bits above a
3-, 2- or 1-byte sequence (R7, R65, R140, decision D5). -/
inductive DecHigh where
  /-- Only the prefix bits at each position are tested; the bits above are not read. -/
  | ignore
  /-- Every bit above the form's sequence must be 0 for the form to apply. -/
  | requireZero
  deriving DecidableEq, Repr

namespace Config

/-! Free values of the output ports: a channel whose input is not driven (R241) or is inside its
settle interval (R243) drives each output bit to ANY value. The first argument says which of the two it
is (`none`: not driven; `some v`: settling after `v` was driven), the second is the counter
`State.freeIndex`, which every step advances. None has a body, so nothing can be proved of a value.
(Log entry 2.) -/

/-- `sp_size` while channel SP is not settled. -/
opaque freeSpSize : Option Byte → Nat → SizeWord
/-- `sp_err` while channel SP is not settled. -/
opaque freeSpErr : Option Byte → Nat → Bit
/-- `enc_packed` while channel ENC is not settled. -/
opaque freeEncPacked : Option CodeWord → Nat → PackedWord
/-- `enc_len` while channel ENC is not settled. -/
opaque freeEncLen : Option CodeWord → Nat → SizeWord
/-- `enc_err` while channel ENC is not settled. -/
opaque freeEncErr : Option CodeWord → Nat → Bit
/-- `dec_cp` while channel DEC is not settled. -/
opaque freeDecCp : Option PackedWord → Nat → CodeWord
/-- `dec_err` while channel DEC is not settled. -/
opaque freeDecErr : Option PackedWord → Nat → Bit

end Config

end Sys2Proof
end

