-- ==== Sys2Proof/Syntax.lean ====
section
/-!
DEFINITION. The operations of the codec core as data: the channels, the three operations with their
identifiers and spellings, what a host can send, and `Instr`, one constructor for each row of
spec/opcode_table.json.
-/

namespace Sys2Proof

/-- The three independent combinational channels (R3). -/
inductive Channel where
  | sp
  | enc
  | dec
  deriving DecidableEq, Repr

/-- The three operations; there are no others (R70, R211). -/
inductive Operation where
  | size
  | encode
  | decode
  deriving DecidableEq, Repr

/-- The 2-bit operation identifier of an operation (R70). Identifier 3 belongs to none. -/
def Operation.identifier : Operation → BitVec 2
  | .size => 0
  | .encode => 1
  | .decode => 2

/-- The channel an operation evaluates (R60, R70). -/
def Operation.channel : Operation → Channel
  | .size => .sp
  | .encode => .enc
  | .decode => .dec

/-- Every spelling of an operation: the transaction's own, and the source's two other names (R72). -/
def Operation.spellings : Operation → List String
  | .size => ["SIZE", "size_of", "utf8Size"]
  | .encode => ["ENCODE", "encode", "utf8Encode"]
  | .decode => ["DECODE", "decode", "utf8Decode"]

/-- The operation a spelling names, if it names one (R72; there are no pseudo-instructions, R73). -/
def Operation.ofSpelling (name : String) : Option Operation :=
  [Operation.size, .encode, .decode].find? fun o => o.spellings.contains name

/-- What a host sends for one evaluation, undecoded. An operand is a literal that may or may not fit
its port; decoding decides (R72). -/
inductive Request where
  /-- A transaction: the pair of a 2-bit operation identifier and an operand (R70, R72). -/
  | transact (op : BitVec 2) (operand : Nat)
  /-- A word driven on a channel's input port; its bits select the form (R60, R63 to R66). -/
  | drive (ch : Channel) (word : Nat)
  deriving DecidableEq, Repr

/-- What a host can do next to the block. -/
inductive HostAction where
  /-- One evaluation of one channel: drive, settle, sample (R245). -/
  | issue (r : Request)
  /-- The host stops driving a channel's input port (R241). -/
  | float (ch : Channel)
  /-- The host drives any of the three input ports at once (R213). -/
  | together (lead : Option Byte) (cp : Option CodeWord) (packed : Option PackedWord)
  deriving DecidableEq, Repr

/-- The rows of spec/opcode_table.json, one constructor each. The four transactions come first. Each of
the others is a FORM: the evaluation of a channel on a word of that form, with the bits the form does
not fix as its operands, so that no bit of the driven word is lost. -/
inductive Instr where
  /-- SIZE (R100): classify a lead byte. -/
  | size (lead : Byte)
  /-- ENCODE (R120): code point to packed sequence. -/
  | encode (cp : CodeWord)
  /-- DECODE (R140): packed sequence to code point. -/
  | decode (packed : PackedWord)
  /-- RESERVED (R70): operation identifier 3. -/
  | reserved
  /-- SP.4 (R101): `sp_lead` is `11110` and this payload. -/
  | sp4 (payload : BitVec 3)
  /-- SP.3 (R102): `sp_lead` is `1110` and this payload. -/
  | sp3 (payload : BitVec 4)
  /-- SP.2 (R103): `sp_lead` is `110` and this payload. -/
  | sp2 (payload : BitVec 5)
  /-- SP.1 (R104): `sp_lead` is `0` and this payload. -/
  | sp1 (payload : BitVec 7)
  /-- SP.INV, first row (R105): a continuation byte, `10` and this payload. -/
  | spInvCont (payload : BitVec 6)
  /-- SP.INV, second row (R105): a malformed lead byte, `11111` and this payload. -/
  | spInvMalformed (payload : BitVec 3)
  /-- ENC.1 (R121): a code point of 7 bits. -/
  | enc1 (c : BitVec 7)
  /-- ENC.2 (R122): a code point of 11 bits, at least 0x80. -/
  | enc2 (c : BitVec 11)
  /-- ENC.3 (R123): a code point of 16 bits, at least 0x800. -/
  | enc3 (c : BitVec 16)
  /-- ENC.4, first row (R124, R64): a code point of 20 bits, at least 0x10000. -/
  | enc4Low (c : BitVec 20)
  /-- ENC.4, second row (R124, R64): the code point 0x100000 + c. -/
  | enc4High (c : BitVec 16)
  /-- ENC.FAIL (R125): an input above 0x10FFFF. -/
  | encFail (c : CodeWord)
  /-- DEC.4 (R143): `11110` and the lead payload, then three bytes. -/
  | dec4 (lead : BitVec 3) (c2 c3 c4 : Byte)
  /-- DEC.3 (R144): the 8 bits above the sequence, `1110` and the lead payload, then two bytes. -/
  | dec3 (high : BitVec 8) (lead : BitVec 4) (c2 c3 : Byte)
  /-- DEC.2 (R145): the 16 bits above the sequence, `110` and the lead payload, then one byte. -/
  | dec2 (high : BitVec 16) (lead : BitVec 5) (c2 : Byte)
  /-- DEC.1 (R146): the 24 bits above the byte, `0` and the payload. -/
  | dec1 (high : BitVec 24) (payload : BitVec 7)
  /-- DEC.INV (R147): a word no form takes. -/
  | decInv (p : PackedWord)
  deriving DecidableEq, Repr

/-- The channel an instruction evaluates; `reserved` evaluates none (R60, R70). -/
def Instr.channel : Instr → Option Channel
  | .size _ => some .sp
  | .encode _ => some .enc
  | .decode _ => some .dec
  | .reserved => none
  | .sp4 _ => some .sp
  | .sp3 _ => some .sp
  | .sp2 _ => some .sp
  | .sp1 _ => some .sp
  | .spInvCont _ => some .sp
  | .spInvMalformed _ => some .sp
  | .enc1 _ => some .enc
  | .enc2 _ => some .enc
  | .enc3 _ => some .enc
  | .enc4Low _ => some .enc
  | .enc4High _ => some .enc
  | .encFail _ => some .enc
  | .dec4 _ _ _ _ => some .dec
  | .dec3 _ _ _ _ => some .dec
  | .dec2 _ _ _ => some .dec
  | .dec1 _ _ => some .dec
  | .decInv _ => some .dec

end Sys2Proof
end

