-- ==== Sys2Proof/WellFormed.lean ====
section
/-!
DEFINITION. When an instruction is one the opcode table describes: a form's operands must make a word
that this form takes and no earlier one does (spec/30_encoding.md R64, R65). The SP forms and the
transactions have no check: their operand types already say it all.
-/

namespace Sys2Proof

/-- Under REQUIRE_ZERO the bits above a sequence must be 0; under IGNORE there is no condition (R140's `hz`). -/
def DecHigh.zeroAbove {w : Nat} (h : DecHigh) (high : BitVec w) : Bool :=
  h == .ignore || high == 0

/-- An instruction is well formed under a setting of `P_DEC_HIGH`. -/
def Instr.wellFormed (h : DecHigh) : Instr → Bool
  | .size _ => true
  | .encode _ => true
  | .decode _ => true
  | .reserved => true
  | .sp4 _ => true
  | .sp3 _ => true
  | .sp2 _ => true
  | .sp1 _ => true
  | .spInvCont _ => true
  | .spInvMalformed _ => true
  | .enc1 _ => true
  | .enc2 c => 0x80 ≤ c.toNat
  | .enc3 c => 0x800 ≤ c.toNat
  | .enc4Low c => 0x10000 ≤ c.toNat
  | .enc4High _ => true
  | .encFail c => 0x10FFFF < c.toNat
  | .dec4 _ _ _ _ => true
  | .dec3 high _ _ _ =>
      high.extractLsb 7 3 != 0b11110#5 && h.zeroAbove high
  | .dec2 high _ _ =>
      high.extractLsb 15 11 != 0b11110#5
        && !(high.extractLsb 7 4 == 0b1110#4 && h.zeroAbove (high.extractLsb 15 8))
        && h.zeroAbove high
  | .dec1 high _ =>
      high.extractLsb 23 19 != 0b11110#5
        && !(high.extractLsb 15 12 == 0b1110#4 && h.zeroAbove (high.extractLsb 23 16))
        && !(high.extractLsb 7 5 == 0b110#3 && h.zeroAbove (high.extractLsb 23 8))
        && h.zeroAbove high
  | .decInv p =>
      p.extractLsb 31 27 != 0b11110#5
        && !(p.extractLsb 23 20 == 0b1110#4 && h.zeroAbove (p.extractLsb 31 24))
        && !(p.extractLsb 15 13 == 0b110#3 && h.zeroAbove (p.extractLsb 31 16))
        && !(p.extractLsb 7 7 == 0b0#1 && h.zeroAbove (p.extractLsb 31 8))

end Sys2Proof
end

