-- ==== Sys2Proof/Decode.lean ====
section
/-!
DEFINITION. From what a host sends to an instruction, and back. A transaction is the pair (operation
identifier, operand) of spec/30_encoding.md R70 and R72; a driven word selects the form of its channel by
the mask and match rows of R63, R64 and R65. The spec gives a transaction no layout as bits (log entry 5).
-/

namespace Sys2Proof

/-- `P_DEC_HIGH` of this hardware (R7, R26, R140; decision D5, log entry 6). It stands here, not in
Config.lean, so that it can be mended. -/
def pDecHigh : DecHigh := .ignore

/-! ## The form rows -/

/-- One row of a form table: it takes a word whose bits under `mask` are `value`. -/
structure FormRow (φ : Type) (w : Nat) where
  form : φ
  mask : BitVec w
  value : BitVec w

/-- A row takes a word. -/
def FormRow.takes {φ : Type} {w : Nat} (row : FormRow φ w) (v : BitVec w) : Bool :=
  v &&& row.mask == row.value

/-- The form of the first row that takes the word, or the last resort (R64, R65: "a form applies only if
no earlier form did"). -/
def firstForm {φ : Type} {w : Nat} (lastResort : φ) (v : BitVec w) : List (FormRow φ w) → φ
  | [] => lastResort
  | row :: rows => if row.takes v then row.form else firstForm lastResort v rows

/-- The forms of channel SP; SP.INV has two rows (R63). -/
inductive SpForm where
  | four
  | three
  | two
  | one
  | continuation
  | malformed
  deriving DecidableEq, Repr

/-- The forms of channel ENC; ENC.4 has two rows (R64). -/
inductive EncForm where
  | one
  | two
  | three
  | fourLow
  | fourHigh
  | fail
  deriving DecidableEq, Repr

/-- The forms of channel DEC (R65). -/
inductive DecForm where
  | four
  | three
  | two
  | one
  | invalid
  deriving DecidableEq, Repr

/-- The mask and match table of channel SP (R63). -/
def spRows : List (FormRow SpForm 8) :=
  [ ⟨.four, 0xF8, 0xF0⟩,
    ⟨.three, 0xF0, 0xE0⟩,
    ⟨.two, 0xE0, 0xC0⟩,
    ⟨.one, 0x80, 0x00⟩,
    ⟨.continuation, 0xC0, 0x80⟩,
    ⟨.malformed, 0xF8, 0xF8⟩ ]

/-- The mask and match table of channel ENC, in order; ENC.FAIL is the last resort (R64). -/
def encRows : List (FormRow EncForm 64) :=
  [ ⟨.one, 0xFFFFFFFFFFFFFF80, 0x0⟩,
    ⟨.two, 0xFFFFFFFFFFFFF800, 0x0⟩,
    ⟨.three, 0xFFFFFFFFFFFF0000, 0x0⟩,
    ⟨.fourLow, 0xFFFFFFFFFFF00000, 0x0⟩,
    ⟨.fourHigh, 0xFFFFFFFFFFFF0000, 0x100000⟩ ]

/-- The mask and match table of channel DEC, in order; DEC.INV is the last resort (R65). -/
def decRows : DecHigh → List (FormRow DecForm 32)
  | .ignore =>
    [ ⟨.four, 0xF8000000, 0xF0000000⟩,
      ⟨.three, 0x00F00000, 0x00E00000⟩,
      ⟨.two, 0x0000E000, 0x0000C000⟩,
      ⟨.one, 0x00000080, 0x00000000⟩ ]
  | .requireZero =>
    [ ⟨.four, 0xF8000000, 0xF0000000⟩,
      ⟨.three, 0xFFF00000, 0x00E00000⟩,
      ⟨.two, 0xFFFFE000, 0x0000C000⟩,
      ⟨.one, 0xFFFFFF80, 0x00000000⟩ ]

/-- The form a lead byte selects (R63, R66). -/
def selectSp (b : Byte) : SpForm := firstForm .malformed b spRows

/-- The form a code point selects (R64, R66). -/
def selectEnc (c : CodeWord) : EncForm := firstForm .fail c encRows

/-- The form a packed word selects (R65, R66). -/
def selectDec (h : DecHigh) (p : PackedWord) : DecForm := firstForm .invalid p (decRows h)

/-- The length in bytes of the sequence a DEC form reads; DEC.INV has none (R65, R154). -/
def decFormLength : DecForm → Option Nat
  | .four => some 4
  | .three => some 3
  | .two => some 2
  | .one => some 1
  | .invalid => none

/-! ## Decoding -/

/-- Why a request is no instruction. -/
inductive DecodeError where
  /-- The operand does not fit the channel's input port (R72: "Operands are hexadecimal literals that fit
  the port width"). -/
  | operandTooWide (ch : Channel)
  deriving DecidableEq, Repr

/-- The form instruction of a word on `sp_lead`. -/
def decodeSpWord (b : Byte) : Instr :=
  match selectSp b with
  | .four => .sp4 (b.extractLsb 2 0)
  | .three => .sp3 (b.extractLsb 3 0)
  | .two => .sp2 (b.extractLsb 4 0)
  | .one => .sp1 (b.extractLsb 6 0)
  | .continuation => .spInvCont (b.extractLsb 5 0)
  | .malformed => .spInvMalformed (b.extractLsb 2 0)

/-- The form instruction of a word on `enc_cp`. -/
def decodeEncWord (c : CodeWord) : Instr :=
  match selectEnc c with
  | .one => .enc1 (c.extractLsb 6 0)
  | .two => .enc2 (c.extractLsb 10 0)
  | .three => .enc3 (c.extractLsb 15 0)
  | .fourLow => .enc4Low (c.extractLsb 19 0)
  | .fourHigh => .enc4High (c.extractLsb 15 0)
  | .fail => .encFail c

/-- The form instruction of a word on `dec_packed`. -/
def decodeDecWord (h : DecHigh) (p : PackedWord) : Instr :=
  match selectDec h p with
  | .four => .dec4 (p.extractLsb 26 24) (p.extractLsb 23 16) (p.extractLsb 15 8) (p.extractLsb 7 0)
  | .three => .dec3 (p.extractLsb 31 24) (p.extractLsb 19 16) (p.extractLsb 15 8) (p.extractLsb 7 0)
  | .two => .dec2 (p.extractLsb 31 16) (p.extractLsb 12 8) (p.extractLsb 7 0)
  | .one => .dec1 (p.extractLsb 31 8) (p.extractLsb 6 0)
  | .invalid => .decInv p

/-- A literal as the value of a port of `w` bits, if it fits (R72). -/
def fitPort (ch : Channel) (w : Nat) (literal : Nat) : Except DecodeError (BitVec w) :=
  if literal < 2 ^ w then .ok (BitVec.ofNat w literal) else .error (.operandTooWide ch)

/-- Decode a request under a setting of `P_DEC_HIGH`. Identifier 3 is decoded, with any operand, to the
instruction of its row, which the machine refuses (R70). -/
def decodeRequestUnder (h : DecHigh) : Request → Except DecodeError Instr
  | .transact op operand =>
    if op = Operation.size.identifier then (fitPort .sp 8 operand).map .size
    else if op = Operation.encode.identifier then (fitPort .enc 64 operand).map .encode
    else if op = Operation.decode.identifier then (fitPort .dec 32 operand).map .decode
    else .ok .reserved
  | .drive .sp word => (fitPort .sp 8 word).map decodeSpWord
  | .drive .enc word => (fitPort .enc 64 word).map decodeEncWord
  | .drive .dec word => (fitPort .dec 32 word).map (decodeDecWord h)

/-- The decoder of this hardware. -/
def decodeRequest (r : Request) : Except DecodeError Instr := decodeRequestUnder pDecHigh r

/-! ## Encoding: the words of an instruction, written from the bit patterns of R61, R63, R64 and R65 -/

/-- `11110xxx` (R63). -/
def sp4Word (payload : BitVec 3) : Byte := 0b11110#5 ++ payload
/-- `1110xxxx` (R63). -/
def sp3Word (payload : BitVec 4) : Byte := 0b1110#4 ++ payload
/-- `110xxxxx` (R63). -/
def sp2Word (payload : BitVec 5) : Byte := 0b110#3 ++ payload
/-- `0xxxxxxx` (R63). -/
def sp1Word (payload : BitVec 7) : Byte := 0b0#1 ++ payload
/-- `10xxxxxx` (R63). -/
def spInvContWord (payload : BitVec 6) : Byte := 0b10#2 ++ payload
/-- `11111xxx` (R63). -/
def spInvMalformedWord (payload : BitVec 3) : Byte := 0b11111#5 ++ payload

/-- A code point of 7 bits on `enc_cp` (R64). -/
def enc1Word (c : BitVec 7) : CodeWord := c.setWidth 64
/-- A code point of 11 bits on `enc_cp` (R64). -/
def enc2Word (c : BitVec 11) : CodeWord := c.setWidth 64
/-- A code point of 16 bits on `enc_cp` (R64). -/
def enc3Word (c : BitVec 16) : CodeWord := c.setWidth 64
/-- A code point of 20 bits on `enc_cp` (R64). -/
def enc4LowWord (c : BitVec 20) : CodeWord := c.setWidth 64
/-- The code point 0x100000 + c on `enc_cp` (R64: match 0x100000 above 16 free bits). -/
def enc4HighWord (c : BitVec 16) : CodeWord := 0x10#48 ++ c

/-- P3 is `11110` and a payload; P2, P1, P0 are the bytes (R60, R65). -/
def dec4Word (lead : BitVec 3) (c2 c3 c4 : Byte) : PackedWord :=
  0b11110#5 ++ lead ++ c2 ++ c3 ++ c4
/-- P2 is `1110` and a payload; P1 and P0 are the bytes; P3 stands above (R60, R65). -/
def dec3Word (high : BitVec 8) (lead : BitVec 4) (c2 c3 : Byte) : PackedWord :=
  high ++ 0b1110#4 ++ lead ++ c2 ++ c3
/-- P1 is `110` and a payload; P0 is the byte; P3 and P2 stand above (R60, R65). -/
def dec2Word (high : BitVec 16) (lead : BitVec 5) (c2 : Byte) : PackedWord :=
  high ++ 0b110#3 ++ lead ++ c2
/-- P0 is `0` and a payload; P3, P2 and P1 stand above (R60, R65). -/
def dec1Word (high : BitVec 24) (payload : BitVec 7) : PackedWord :=
  high ++ 0b0#1 ++ payload

/-- The transaction with the same effect on the same port (R72): a form's word is the operand of its
channel's operation. -/
def Instr.asTransaction : Instr → Instr
  | .size lead => .size lead
  | .encode cp => .encode cp
  | .decode packed => .decode packed
  | .reserved => .reserved
  | .sp4 payload => .size (sp4Word payload)
  | .sp3 payload => .size (sp3Word payload)
  | .sp2 payload => .size (sp2Word payload)
  | .sp1 payload => .size (sp1Word payload)
  | .spInvCont payload => .size (spInvContWord payload)
  | .spInvMalformed payload => .size (spInvMalformedWord payload)
  | .enc1 c => .encode (enc1Word c)
  | .enc2 c => .encode (enc2Word c)
  | .enc3 c => .encode (enc3Word c)
  | .enc4Low c => .encode (enc4LowWord c)
  | .enc4High c => .encode (enc4HighWord c)
  | .encFail c => .encode c
  | .dec4 lead c2 c3 c4 => .decode (dec4Word lead c2 c3 c4)
  | .dec3 high lead c2 c3 => .decode (dec3Word high lead c2 c3)
  | .dec2 high lead c2 => .decode (dec2Word high lead c2)
  | .dec1 high payload => .decode (dec1Word high payload)
  | .decInv p => .decode p

/-- The request of an instruction: a transaction's pair, a form's word driven on its channel's port. -/
def encodeRequest : Instr → Request
  | .size lead => .transact 0 lead.toNat
  | .encode cp => .transact 1 cp.toNat
  | .decode packed => .transact 2 packed.toNat
  | .reserved => .transact 3 0
  | .sp4 payload => .drive .sp (sp4Word payload).toNat
  | .sp3 payload => .drive .sp (sp3Word payload).toNat
  | .sp2 payload => .drive .sp (sp2Word payload).toNat
  | .sp1 payload => .drive .sp (sp1Word payload).toNat
  | .spInvCont payload => .drive .sp (spInvContWord payload).toNat
  | .spInvMalformed payload => .drive .sp (spInvMalformedWord payload).toNat
  | .enc1 c => .drive .enc (enc1Word c).toNat
  | .enc2 c => .drive .enc (enc2Word c).toNat
  | .enc3 c => .drive .enc (enc3Word c).toNat
  | .enc4Low c => .drive .enc (enc4LowWord c).toNat
  | .enc4High c => .drive .enc (enc4HighWord c).toNat
  | .encFail c => .drive .enc c.toNat
  | .dec4 lead c2 c3 c4 => .drive .dec (dec4Word lead c2 c3 c4).toNat
  | .dec3 high lead c2 c3 => .drive .dec (dec3Word high lead c2 c3).toNat
  | .dec2 high lead c2 => .drive .dec (dec2Word high lead c2).toNat
  | .dec1 high payload => .drive .dec (dec1Word high payload).toNat
  | .decInv p => .drive .dec p.toNat

/-! ## The opcode table's own numbering -/

/-- The request a row of spec/opcode_table.json means by a word of `nbits` bits. The table keys the four
transactions by a 2-bit identifier (one byte, the operand zero) and the forms by the word on their port:
one byte for `sp_lead`, two to four bytes for `dec_packed`, more for `enc_cp`. One byte below 4 is read as
an identifier: a word 0x00 of SP.1 or DEC.1 has the same bits as the row of SIZE (log entry 5). -/
def tableRequest (nbits w : Nat) : Request :=
  if nbits ≤ 8 then
    if w < 4 then .transact (BitVec.ofNat 2 w) 0 else .drive .sp w
  else if nbits ≤ 32 then .drive .dec w
  else .drive .enc w

/-- The instruction the decoder reads from a word of the opcode table. -/
def decodeTableWord (nbits w : Nat) : Option Instr :=
  (decodeRequest (tableRequest nbits w)).toOption

end Sys2Proof
end

