-- ==== Sys2Proof/Machine/State.lean ====
section
/-!
DEFINITION. The state of the codec core. The block holds no architectural state (spec/10_state.md R20);
a model represents its ports (R22). Each channel is in one of three conditions: its input is not driven
(R241), it is inside its settle interval (R243), or it is settled and its outputs belong to its input
(R23, R47). Two fields are the model's own: the host's pending actions (log entry 3) and the counter of
the free values (log entry 2).
-/

namespace Sys2Proof.Machine

/-- The outputs of channel SP (R22). -/
structure SpOut where
  size : SizeWord
  err : Bit
  deriving DecidableEq, Repr

/-- The outputs of channel ENC (R22). -/
structure EncOut where
  packed : PackedWord
  len : SizeWord
  err : Bit
  deriving DecidableEq, Repr

/-- The outputs of channel DEC (R22). -/
structure DecOut where
  cp : CodeWord
  err : Bit
  deriving DecidableEq, Repr

/-- The ports of one channel: `α` is the type of its input, `β` of its outputs. -/
inductive Phase (α β : Type) where
  /-- Some bit of the input is not driven; the outputs are unspecified (R241). -/
  | undriven
  /-- The input changed less than `T_SETTLE` ago; the outputs are unspecified (R243). -/
  | settling (input : α)
  /-- The input is stable and the outputs have settled, all together (R243, R47). -/
  | settled (input : α) (out : β)
  deriving DecidableEq, Repr

/-- The value on the input port, where every bit of it is driven. -/
def Phase.input {α β : Type} : Phase α β → Option α
  | .undriven => none
  | .settling v => some v
  | .settled v _ => some v

/-- The settled outputs, where there are any. -/
def Phase.outputs {α β : Type} : Phase α β → Option β
  | .undriven => none
  | .settling _ => none
  | .settled _ out => some out

/-- The ten ports of R22 by channel, and the model's own two fields. -/
structure State where
  /-- Channel SP: `sp_lead`, `sp_size`, `sp_err`. -/
  sp : Phase Byte SpOut
  /-- Channel ENC: `enc_cp`, `enc_packed`, `enc_len`, `enc_err`. -/
  enc : Phase CodeWord EncOut
  /-- Channel DEC: `dec_packed`, `dec_cp`, `dec_err`. -/
  dec : Phase PackedWord DecOut
  /-- What the host is about to do, oldest first (log entry 3). -/
  actions : List HostAction
  /-- The counter the free values are applied to (log entry 2). -/
  freeIndex : Nat
  deriving DecidableEq, Repr

/-- The machine right after reset, or power-up. The block has no reset input and no reset value (R29,
R240); what the spec says of that moment is that an input may not be driven (R241), and that is what every
input is (DESIGN CHOICE, log entry 1). -/
def State.reset : State where
  sp := .undriven
  enc := .undriven
  dec := .undriven
  actions := []
  freeIndex := 0

/-- The faults of the machine: none. "No channel ever traps, interrupts, halts or changes any state on an
error" (R200); spec/93_implementation_defined.md marks no behaviour a fault or stuck. -/
inductive Fault where
  deriving DecidableEq, Repr

/-- The refusals of the machine. -/
inductive Refusal where
  /-- Raised by exec alone, for an instruction without a meaning; no arm raises it now. Safe. -/
  | notModelled (mnemonic : String)
  /-- Raised by the meaning of RESERVED: operation identifier 3, which the spec refuses (R70, U12). Safe. -/
  | reservedIdentifier
  /-- Raised by step on a request whose operand does not fit the channel's port: no transaction of the
  spec (R72). Safe. -/
  | operandTooWide (ch : Channel)
  deriving DecidableEq, Repr

end Sys2Proof.Machine
end

