-- ==== Sys2Proof/Machine/Flags.lean ====
section
/-!
DEFINITION. The error outputs and the error kinds. The block holds no flags (spec/10_state.md R25); what it
drives instead is one error bit a channel, a function of the present input (R200 to R204).
-/

namespace Sys2Proof.Machine

/-- A size on a size output: `zext_8(s)` (R100, R120). -/
def sizePort (n : Nat) : SizeWord := BitVec.ofNat 8 n

/-- The error output beside a size output: `(n == 0) ? 1 : 0` (R100, R120). -/
def errOfSize (n : SizeWord) : Bit := if n == 0 then 1 else 0

/-- The two error kinds; no other error exists (R203). -/
inductive ErrorKind where
  /-- Channels SP and DEC (R201). -/
  | invalidLeadByte
  /-- Channel ENC (R202). -/
  | codePointOutOfRange
  deriving DecidableEq, Repr

/-- The error kind follows from the channel (R203). -/
def errorKindOf : Channel → ErrorKind
  | .sp => .invalidLeadByte
  | .enc => .codePointOutOfRange
  | .dec => .invalidLeadByte

/-- What an error output of a channel says: 1 is the channel's error, 0 is success (R203). -/
def errorOf (ch : Channel) (err : Bit) : Option ErrorKind :=
  if err == 1 then some (errorKindOf ch) else none

end Sys2Proof.Machine
end

