-- ==== Sys2Proof/Machine/Operands.lean ====
section
/-!
DEFINITION. The packed sequence: its bytes, its byte order, and the fields of a packed word. The block uses
only bit selection, concatenation, zero extension and unsigned comparison (spec/43_decoder.md R150).
-/

namespace Sys2Proof.Machine

/-! ## Bytes of a sequence -/

/-- The classes of R62: every byte is of exactly one. -/
inductive ByteClass where
  | lead1
  | continuation
  | lead2
  | lead3
  | lead4
  | malformed
  deriving DecidableEq, Repr

/-- The class of a byte, by the ranges of R62. -/
def byteClass (b : Byte) : ByteClass :=
  if b ≤ 0x7F then .lead1
  else if b ≤ 0xBF then .continuation
  else if b ≤ 0xDF then .lead2
  else if b ≤ 0xEF then .lead3
  else if b ≤ 0xF7 then .lead4
  else .malformed

/-- The lead byte of a 2-byte sequence (R122). -/
def leadByte2 (field : BitVec 5) : Byte := 0b110#3 ++ field

/-- The lead byte of a 3-byte sequence (R123). -/
def leadByte3 (field : BitVec 4) : Byte := 0b1110#4 ++ field

/-- The lead byte of a 4-byte sequence (R124). -/
def leadByte4 (field : BitVec 3) : Byte := 0b11110#5 ++ field

/-- A continuation byte (R122 to R124). -/
def contByte (field : BitVec 6) : Byte := 0b10#2 ++ field

/-! ## Byte order -/

/-- Bytes packed most significant first and right-aligned in 32 bits (R41, R42). -/
def packBytes (bytes : List Byte) : PackedWord :=
  bytes.foldl (fun acc b => acc <<< 8 ||| b.setWidth 32) 0

/-- Byte `k` of an N-byte packed value, `k` from 1 (the lead byte) to N: bits `[8(N-k)+7 : 8(N-k)]` (R41). -/
def packedByte (p : PackedWord) (n k : Nat) : Byte := (p >>> (8 * (n - k))).setWidth 8

/-- The lead byte of an N-byte packed value: bits `[8N-1 : 8N-8]` (R44, R108). -/
def leadByteOf (p : PackedWord) (n : Nat) : Byte := packedByte p n 1

/-- The lead byte of an Encoder output without its length: the most significant byte that is not 0, or 0x00
when the value is 0 (R44). -/
def topNonzeroByte (p : PackedWord) : Byte :=
  if p.extractLsb 31 24 != 0 then p.extractLsb 31 24
  else if p.extractLsb 23 16 != 0 then p.extractLsb 23 16
  else if p.extractLsb 15 8 != 0 then p.extractLsb 15 8
  else p.extractLsb 7 0

/-- A DEC input is clean for a form of length N: every bit above the N-byte sequence is 0 (R148). -/
def clean (n : Nat) (p : PackedWord) : Bool := p >>> (8 * n) == 0

end Sys2Proof.Machine
end

