-- ==== Sys2Proof/Machine/Ops.lean ====
section
/-!
DEFINITION. The operations on the ports. A transaction is "drive input; input stable for T_SETTLE; sample
outputs" (spec/70_reset_and_hazards.md R245): `drive`, then `settle`, and the accessors sample. There is no
trap entry and no return (R207, R208), no memory and no register, so these are all the operations there are.
Every operation that lets time pass advances the counter of the free values.
DESIGN CHOICE (log entry 11): every drive opens a settle interval, also a drive of the value that is settled on
the port already. R243 opens one when a bit of the input changes, and is silent on a drive that changes none.
-/

namespace Sys2Proof.Machine

/-- Time passes: the free values are drawn anew (log entry 2). -/
def State.tick (s : State) : State := { s with freeIndex := s.freeIndex + 1 }

/-! ## Driving and settling -/

/-- `sp_lead` takes a value; the SP outputs are unspecified from here (R243; where the value is the one already
settled there, DESIGN CHOICE, log entry 11). -/
def State.driveSp (lead : Byte) (s : State) : State := { s.tick with sp := .settling lead }

/-- `T_SETTLE` has passed with `sp_lead` stable: the SP outputs are `out`, all together (R243, R47). -/
def State.settleSp (out : SpOut) (s : State) : State :=
  match s.sp with
  | .settling lead => { s.tick with sp := .settled lead out }
  | .undriven => s.tick
  | .settled _ _ => s.tick

/-- `enc_cp` takes a value; the ENC outputs are unspecified from here (R243; where the value is the one already
settled there, DESIGN CHOICE, log entry 11). -/
def State.driveEnc (cp : CodeWord) (s : State) : State := { s.tick with enc := .settling cp }

/-- `T_SETTLE` has passed with `enc_cp` stable: the ENC outputs are `out`, all together (R243, R47). -/
def State.settleEnc (out : EncOut) (s : State) : State :=
  match s.enc with
  | .settling cp => { s.tick with enc := .settled cp out }
  | .undriven => s.tick
  | .settled _ _ => s.tick

/-- `dec_packed` takes a value; the DEC outputs are unspecified from here (R243; where the value is the one already
settled there, DESIGN CHOICE, log entry 11). -/
def State.driveDec (packed : PackedWord) (s : State) : State := { s.tick with dec := .settling packed }

/-- `T_SETTLE` has passed with `dec_packed` stable: the DEC outputs are `out`, all together (R243, R47). -/
def State.settleDec (out : DecOut) (s : State) : State :=
  match s.dec with
  | .settling packed => { s.tick with dec := .settled packed out }
  | .undriven => s.tick
  | .settled _ _ => s.tick

/-- One evaluation of channel SP whose outputs are `out` (R245). -/
def State.evalSp (lead : Byte) (out : SpOut) (s : State) : State := (s.driveSp lead).settleSp out

/-- One evaluation of channel ENC whose outputs are `out` (R245). -/
def State.evalEnc (cp : CodeWord) (out : EncOut) (s : State) : State := (s.driveEnc cp).settleEnc out

/-- One evaluation of channel DEC whose outputs are `out` (R245). -/
def State.evalDec (packed : PackedWord) (out : DecOut) (s : State) : State := (s.driveDec packed).settleDec out

/-- The host stops driving a channel's input: its outputs are unspecified (R241). -/
def State.float (ch : Channel) (s : State) : State :=
  match ch with
  | .sp => { s.tick with sp := .undriven }
  | .enc => { s.tick with enc := .undriven }
  | .dec => { s.tick with dec := .undriven }

/-! ## Sampling the output ports

A settled channel shows its outputs. An undriven (R241) or settling (R243) channel shows a free value. -/

/-- The value on `sp_lead`, where it is driven. -/
def State.spLead (s : State) : Option Byte := s.sp.input
/-- The value on `enc_cp`, where it is driven. -/
def State.encCp (s : State) : Option CodeWord := s.enc.input
/-- The value on `dec_packed`, where it is driven. -/
def State.decPacked (s : State) : Option PackedWord := s.dec.input

/-- `sp_size`. -/
def State.spSize (s : State) : SizeWord :=
  (s.sp.outputs.map SpOut.size).getD (Config.freeSpSize s.spLead s.freeIndex)
/-- `sp_err`. -/
def State.spErr (s : State) : Bit :=
  (s.sp.outputs.map SpOut.err).getD (Config.freeSpErr s.spLead s.freeIndex)
/-- `enc_packed`. -/
def State.encPacked (s : State) : PackedWord :=
  (s.enc.outputs.map EncOut.packed).getD (Config.freeEncPacked s.encCp s.freeIndex)
/-- `enc_len`. -/
def State.encLen (s : State) : SizeWord :=
  (s.enc.outputs.map EncOut.len).getD (Config.freeEncLen s.encCp s.freeIndex)
/-- `enc_err`. -/
def State.encErr (s : State) : Bit :=
  (s.enc.outputs.map EncOut.err).getD (Config.freeEncErr s.encCp s.freeIndex)
/-- `dec_cp`. -/
def State.decCp (s : State) : CodeWord :=
  (s.dec.outputs.map DecOut.cp).getD (Config.freeDecCp s.decPacked s.freeIndex)
/-- `dec_err`. -/
def State.decErr (s : State) : Bit :=
  (s.dec.outputs.map DecOut.err).getD (Config.freeDecErr s.decPacked s.freeIndex)

/-- The error output of a channel. -/
def State.errBit (ch : Channel) (s : State) : Bit :=
  match ch with
  | .sp => s.spErr
  | .enc => s.encErr
  | .dec => s.decErr

/-- The error a channel reports, by its error output (R201 to R203). -/
def State.error (ch : Channel) (s : State) : Option ErrorKind := errorOf ch (s.errBit ch)

/-- What a transaction gives the host: the text after `->` of R72. -/
inductive Response where
  | size (size : SizeWord) (err : Bit)
  | encode (packed : PackedWord) (len : SizeWord) (err : Bit)
  | decode (cp : CodeWord) (err : Bit)
  deriving DecidableEq, Repr

/-- The host samples every output of a channel (R245, R249). Reading changes nothing. -/
def State.sample (ch : Channel) (s : State) : Response :=
  match ch with
  | .sp => .size s.spSize s.spErr
  | .enc => .encode s.encPacked s.encLen s.encErr
  | .dec => .decode s.decCp s.decErr

end Sys2Proof.Machine
end

