-- ==== Sys2Proof/Machine/Decoder.lean ====
section
/-!
DEFINITION. Channel DEC: the operation DECODE and its forms (spec/43_decoder.md R140 to R154). The functions
take the setting of `P_DEC_HIGH` as an argument; the meanings take this hardware's, `pDecHigh`.
-/

namespace Sys2Proof.Machine

/-! ## The code points of the forms (R67) -/

/-- `zext_64(p[26:24] ++ p[21:16] ++ p[13:8] ++ p[5:0])` (R143). -/
def decCp4 (p : PackedWord) : CodeWord :=
  (p.extractLsb 26 24 ++ p.extractLsb 21 16 ++ p.extractLsb 13 8 ++ p.extractLsb 5 0).setWidth 64

/-- `zext_64(p[19:16] ++ p[13:8] ++ p[5:0])` (R144). -/
def decCp3 (p : PackedWord) : CodeWord :=
  (p.extractLsb 19 16 ++ p.extractLsb 13 8 ++ p.extractLsb 5 0).setWidth 64

/-- `zext_64(p[12:8] ++ p[5:0])` (R145). -/
def decCp2 (p : PackedWord) : CodeWord :=
  (p.extractLsb 12 8 ++ p.extractLsb 5 0).setWidth 64

/-- `zext_64(p[6:0])` (R146). -/
def decCp1 (p : PackedWord) : CodeWord :=
  (p.extractLsb 6 0).setWidth 64

/-- The outputs of a form that matched (R143 to R146). -/
def decSuccess (cp : CodeWord) : DecOut := ⟨cp, 0⟩

/-- The outputs of DEC.INV (R147, R201). -/
def decFailure : DecOut := ⟨0, 1⟩

/-! ## The tests of the ladder (R140) -/

/-- `p[31:27] == 11110`. -/
def decTest4 (p : PackedWord) : Bool := p.extractLsb 31 27 == 0b11110#5

/-- `p[23:20] == 1110 and hz3`. -/
def decTest3 (h : DecHigh) (p : PackedWord) : Bool :=
  p.extractLsb 23 20 == 0b1110#4 && (h == .ignore || p.extractLsb 31 24 == 0)

/-- `p[15:13] == 110 and hz2`. -/
def decTest2 (h : DecHigh) (p : PackedWord) : Bool :=
  p.extractLsb 15 13 == 0b110#3 && (h == .ignore || p.extractLsb 31 16 == 0)

/-- `p[7] == 0 and hz1`. -/
def decTest1 (h : DecHigh) (p : PackedWord) : Bool :=
  p.extractLsb 7 7 == 0b0#1 && (h == .ignore || p.extractLsb 31 8 == 0)

/-- The function of channel DEC under a setting of `P_DEC_HIGH`: the ladder of R140. -/
def decoder (h : DecHigh) (p : PackedWord) : DecOut :=
  if decTest4 p then decSuccess (decCp4 p)
  else if decTest3 h p then decSuccess (decCp3 p)
  else if decTest2 h p then decSuccess (decCp2 p)
  else if decTest1 h p then decSuccess (decCp1 p)
  else decFailure

/-! ## The meanings

As for channel ENC, a form whose operands are not well formed still drives a word, and the channel drives
its function of it (R69; log entry 8). -/

/-- DECODE (R140). -/
def execDecode (packed : PackedWord) (s : State) : Host.Outcome State Fault Refusal :=
  .next (s.evalDec packed (decoder pDecHigh packed))

/-- DEC.4 (R143). -/
def execDec4 (lead : BitVec 3) (c2 c3 c4 : Byte) (s : State) : Host.Outcome State Fault Refusal :=
  .next (s.evalDec (dec4Word lead c2 c3 c4) (decSuccess (decCp4 (dec4Word lead c2 c3 c4))))

/-- DEC.3 (R144): DEC.4 does not apply and the test at P2 holds. -/
def execDec3 (high : BitVec 8) (lead : BitVec 4) (c2 c3 : Byte) (s : State) :
    Host.Outcome State Fault Refusal :=
  let p := dec3Word high lead c2 c3
  .next (s.evalDec p
    (if !decTest4 p && decTest3 pDecHigh p then decSuccess (decCp3 p) else decoder pDecHigh p))

/-- DEC.2 (R145): DEC.4 and DEC.3 do not apply and the test at P1 holds. -/
def execDec2 (high : BitVec 16) (lead : BitVec 5) (c2 : Byte) (s : State) :
    Host.Outcome State Fault Refusal :=
  let p := dec2Word high lead c2
  .next (s.evalDec p
    (if !decTest4 p && !decTest3 pDecHigh p && decTest2 pDecHigh p then decSuccess (decCp2 p)
     else decoder pDecHigh p))

/-- DEC.1 (R146): DEC.4, DEC.3 and DEC.2 do not apply and the test at P0 holds. -/
def execDec1 (high : BitVec 24) (payload : BitVec 7) (s : State) : Host.Outcome State Fault Refusal :=
  let p := dec1Word high payload
  .next (s.evalDec p
    (if !decTest4 p && !decTest3 pDecHigh p && !decTest2 pDecHigh p && decTest1 pDecHigh p then
       decSuccess (decCp1 p)
     else decoder pDecHigh p))

/-- DEC.INV (R147): no form applies. -/
def execDecInv (p : PackedWord) (s : State) : Host.Outcome State Fault Refusal :=
  .next (s.evalDec p
    (if !decTest4 p && !decTest3 pDecHigh p && !decTest2 pDecHigh p && !decTest1 pDecHigh p then decFailure
     else decoder pDecHigh p))

end Sys2Proof.Machine
end

