-- ==== Sys2Proof/Machine/Encoder.lean ====
section
/-!
DEFINITION. Channel ENC: the operation ENCODE and its forms (spec/42_encoder.md R120 to R130).
-/

namespace Sys2Proof.Machine

/-! ## The sequences of the forms: pseudocode of R120 -/

/-- One byte: `0 ++ c[6:0]` (R121). -/
def encPacked1 (c : CodeWord) : PackedWord :=
  (0b0#1 ++ c.extractLsb 6 0).setWidth 32

/-- Two bytes: `110 ++ c[10:6] ++ 10 ++ c[5:0]` (R122). -/
def encPacked2 (c : CodeWord) : PackedWord :=
  (0b110#3 ++ c.extractLsb 10 6 ++ 0b10#2 ++ c.extractLsb 5 0).setWidth 32

/-- Three bytes: `1110 ++ c[15:12] ++ 10 ++ c[11:6] ++ 10 ++ c[5:0]` (R123). -/
def encPacked3 (c : CodeWord) : PackedWord :=
  (0b1110#4 ++ c.extractLsb 15 12 ++ 0b10#2 ++ c.extractLsb 11 6 ++ 0b10#2 ++ c.extractLsb 5 0).setWidth 32

/-- Four bytes: `11110 ++ c[20:18] ++ 10 ++ c[17:12] ++ 10 ++ c[11:6] ++ 10 ++ c[5:0]` (R124). -/
def encPacked4 (c : CodeWord) : PackedWord :=
  (0b11110#5 ++ c.extractLsb 20 18 ++ 0b10#2 ++ c.extractLsb 17 12 ++ 0b10#2 ++ c.extractLsb 11 6
    ++ 0b10#2 ++ c.extractLsb 5 0).setWidth 32

/-- The ENC outputs for a packed value and a length; the error bit is 1 exactly for length 0 (R120). -/
def encOutOf (packed : PackedWord) (n : Nat) : EncOut where
  packed := packed
  len := sizePort n
  err := errOfSize (sizePort n)

/-- The outputs of the failure form: packed 0, length 0, error (R125, R202). -/
def encFailure : EncOut := encOutOf 0 0

/-- The function of channel ENC: the ranges of R120, compared unsigned on all 64 bits (R126, R128). -/
def encoder (c : CodeWord) : EncOut :=
  if c ≤ 0x7F then encOutOf (encPacked1 c) 1
  else if c ≤ 0x7FF then encOutOf (encPacked2 c) 2
  else if c ≤ 0xFFFF then encOutOf (encPacked3 c) 3
  else if c ≤ 0x10FFFF then encOutOf (encPacked4 c) 4
  else encFailure

/-- The bytes of the Encoder's table (R121 to R125): none on failure. The packed value is these bytes,
most significant first (R41, R68). -/
def encoderBytes (c : CodeWord) : List Byte :=
  if c ≤ 0x7F then [c.extractLsb 7 0]
  else if c ≤ 0x7FF then [leadByte2 (c.extractLsb 10 6), contByte (c.extractLsb 5 0)]
  else if c ≤ 0xFFFF then
    [leadByte3 (c.extractLsb 15 12), contByte (c.extractLsb 11 6), contByte (c.extractLsb 5 0)]
  else if c ≤ 0x10FFFF then
    [leadByte4 (c.extractLsb 20 18), contByte (c.extractLsb 17 12), contByte (c.extractLsb 11 6),
      contByte (c.extractLsb 5 0)]
  else []

/-! ## The meanings

A form's operands make a word that the form takes when they are well formed. On other operands the word
is still a value of `enc_cp`, and the channel drives its function of it (R69; log entry 8). -/

/-- ENCODE (R120). -/
def execEncode (cp : CodeWord) (s : State) : Host.Outcome State Fault Refusal :=
  .next (s.evalEnc cp (encoder cp))

/-- ENC.1 (R121). -/
def execEnc1 (c : BitVec 7) (s : State) : Host.Outcome State Fault Refusal :=
  .next (s.evalEnc (enc1Word c) (encOutOf (encPacked1 (enc1Word c)) 1))

/-- ENC.2 (R122). -/
def execEnc2 (c : BitVec 11) (s : State) : Host.Outcome State Fault Refusal :=
  .next (s.evalEnc (enc2Word c)
    (if 0x80 ≤ c then encOutOf (encPacked2 (enc2Word c)) 2 else encoder (enc2Word c)))

/-- ENC.3 (R123). -/
def execEnc3 (c : BitVec 16) (s : State) : Host.Outcome State Fault Refusal :=
  .next (s.evalEnc (enc3Word c)
    (if 0x800 ≤ c then encOutOf (encPacked3 (enc3Word c)) 3 else encoder (enc3Word c)))

/-- ENC.4 up to 0xFFFFF (R124, R64). -/
def execEnc4Low (c : BitVec 20) (s : State) : Host.Outcome State Fault Refusal :=
  .next (s.evalEnc (enc4LowWord c)
    (if 0x10000 ≤ c then encOutOf (encPacked4 (enc4LowWord c)) 4 else encoder (enc4LowWord c)))

/-- ENC.4 from 0x100000 (R124, R64). -/
def execEnc4High (c : BitVec 16) (s : State) : Host.Outcome State Fault Refusal :=
  .next (s.evalEnc (enc4HighWord c) (encOutOf (encPacked4 (enc4HighWord c)) 4))

/-- ENC.FAIL (R125, R202). -/
def execEncFail (c : CodeWord) (s : State) : Host.Outcome State Fault Refusal :=
  .next (s.evalEnc c (if 0x10FFFF < c then encFailure else encoder c))

end Sys2Proof.Machine
end

