-- ==== Sys2Proof/Machine/SizeProbe.lean ====
section
/-!
DEFINITION. Channel SP: the operation SIZE and its forms (spec/41_sizeprobe.md R100 to R107).
-/

namespace Sys2Proof.Machine

/-- The SP outputs for a size: the size, and the error bit that is 1 exactly for size 0 (R100). -/
def spOutOfSize (n : Nat) : SpOut where
  size := sizePort n
  err := errOfSize (sizePort n)

/-- The function of channel SP: the ladder of R100. -/
def sizeProbe (b : Byte) : SpOut :=
  spOutOfSize <|
    if b.extractLsb 7 3 = 0b11110#5 then 4
    else if b.extractLsb 7 4 = 0b1110#4 then 3
    else if b.extractLsb 7 5 = 0b110#3 then 2
    else if b.extractLsb 7 7 = 0b0#1 then 1
    else 0

/-- SIZE (R100). -/
def execSize (lead : Byte) (s : State) : Host.Outcome State Fault Refusal :=
  .next (s.evalSp lead (sizeProbe lead))

/-- SP.4: size 4 (R101). -/
def execSp4 (payload : BitVec 3) (s : State) : Host.Outcome State Fault Refusal :=
  .next (s.evalSp (sp4Word payload) (spOutOfSize 4))

/-- SP.3: size 3 (R102). -/
def execSp3 (payload : BitVec 4) (s : State) : Host.Outcome State Fault Refusal :=
  .next (s.evalSp (sp3Word payload) (spOutOfSize 3))

/-- SP.2: size 2 (R103). -/
def execSp2 (payload : BitVec 5) (s : State) : Host.Outcome State Fault Refusal :=
  .next (s.evalSp (sp2Word payload) (spOutOfSize 2))

/-- SP.1: size 1 (R104). -/
def execSp1 (payload : BitVec 7) (s : State) : Host.Outcome State Fault Refusal :=
  .next (s.evalSp (sp1Word payload) (spOutOfSize 1))

/-- SP.INV on a continuation byte: size 0 and the error (R105, R201). -/
def execSpInvCont (payload : BitVec 6) (s : State) : Host.Outcome State Fault Refusal :=
  .next (s.evalSp (spInvContWord payload) (spOutOfSize 0))

/-- SP.INV on a malformed lead byte: size 0 and the error (R105, R201). -/
def execSpInvMalformed (payload : BitVec 3) (s : State) : Host.Outcome State Fault Refusal :=
  .next (s.evalSp (spInvMalformedWord payload) (spOutOfSize 0))

end Sys2Proof.Machine
end

