-- ==== Sys2Proof/Machine/HostSide.lean ====
section
/-!
DEFINITION. What is left of the table and of the host: the reserved identifier, several channels driven at
once, a floated port, and a request that is no transaction.
-/

namespace Sys2Proof.Machine

/-- RESERVED: "Identifier 3 (`11`) is reserved; a model refuses a transaction that carries it" (R70). -/
def execReserved (_s : State) : Host.Outcome State Fault Refusal :=
  .refused .reservedIdentifier

/-- A channel's ports after the host drives a value on its input, or leaves it alone, and the settle
interval has passed. -/
def Phase.after {α β : Type} (f : α → β) (driven : Option α) (now : Phase α β) : Phase α β :=
  match driven with
  | none => now
  | some v => .settled v (f v)

/-- The host drives any of the three inputs at once: each channel's outputs follow only its own input
(R213). -/
def execTogether (lead : Option Byte) (cp : Option CodeWord) (packed : Option PackedWord) (s : State) :
    Host.Outcome State Fault Refusal :=
  .next { s.tick with
    sp := s.sp.after sizeProbe lead
    enc := s.enc.after encoder cp
    dec := s.dec.after (decoder pDecHigh) packed }

/-- The host floats a port (R241). -/
def execFloat (ch : Channel) (s : State) : Host.Outcome State Fault Refusal :=
  .next (s.float ch)

/-- No action pends: the block does nothing and time passes (R20, R21). -/
def execIdle (s : State) : Host.Outcome State Fault Refusal :=
  .next s.tick

/-- The refusal of a request that is no transaction (R72). -/
def refusalOf : DecodeError → Refusal
  | .operandTooWide ch => .operandTooWide ch

end Sys2Proof.Machine
end

