-- ==== Sys2Proof/Machine/Dispatch.lean ====
section
/-!
DEFINITION. One arm per constructor of Instr: the meaning of every row of spec/opcode_table.json.
-/

namespace Sys2Proof.Machine

def exec (i : Instr) (s : State) : Host.Outcome State Fault Refusal :=
  match i with
  -- the transactions
  | .size lead => Sys2Proof.Machine.execSize lead s
  | .encode cp => Sys2Proof.Machine.execEncode cp s
  | .decode packed => Sys2Proof.Machine.execDecode packed s
  | .reserved => Sys2Proof.Machine.execReserved s
  -- the forms of channel SP
  | .sp4 payload => Sys2Proof.Machine.execSp4 payload s
  | .sp3 payload => Sys2Proof.Machine.execSp3 payload s
  | .sp2 payload => Sys2Proof.Machine.execSp2 payload s
  | .sp1 payload => Sys2Proof.Machine.execSp1 payload s
  | .spInvCont payload => Sys2Proof.Machine.execSpInvCont payload s
  | .spInvMalformed payload => Sys2Proof.Machine.execSpInvMalformed payload s
  -- the forms of channel ENC
  | .enc1 c => Sys2Proof.Machine.execEnc1 c s
  | .enc2 c => Sys2Proof.Machine.execEnc2 c s
  | .enc3 c => Sys2Proof.Machine.execEnc3 c s
  | .enc4Low c => Sys2Proof.Machine.execEnc4Low c s
  | .enc4High c => Sys2Proof.Machine.execEnc4High c s
  | .encFail c => Sys2Proof.Machine.execEncFail c s
  -- the forms of channel DEC
  | .dec4 lead c2 c3 c4 => Sys2Proof.Machine.execDec4 lead c2 c3 c4 s
  | .dec3 high lead c2 c3 => Sys2Proof.Machine.execDec3 high lead c2 c3 s
  | .dec2 high lead c2 => Sys2Proof.Machine.execDec2 high lead c2 s
  | .dec1 high payload => Sys2Proof.Machine.execDec1 high payload s
  | .decInv p => Sys2Proof.Machine.execDecInv p s

end Sys2Proof.Machine
end

