-- ==== Sys2Proof/Machine/Step.lean ====
section
/-!
DEFINITION. One step: the host's oldest pending action. "In the model each transaction is one step"
(spec/70_reset_and_hazards.md R248). The block has no program counter and fetches nothing (R21); what a
step takes its instruction from is the host's list of actions (log entry 3).
-/

namespace Sys2Proof.Machine

/-- Run a request: decode it and run the instruction, or refuse what is no transaction (R72). -/
def stepRequest (r : Request) (s : State) : Host.Outcome State Fault Refusal :=
  match decodeRequest r with
  | .ok i => exec i s
  | .error e => .refused (refusalOf e)

/-- One step of the machine. -/
def step (s : State) : Host.Outcome State Fault Refusal :=
  match s.actions with
  | [] => execIdle s
  | .issue r :: rest => stepRequest r { s with actions := rest }
  | .float ch :: rest => execFloat ch { s with actions := rest }
  | .together lead cp packed :: rest => execTogether lead cp packed { s with actions := rest }

/-- The state in which the next step runs the instruction of a word of the opcode table: its request is the
host's next action. A program comes to the block only this way, from outside (log entry 3). -/
def State.withFetchWord (s : State) (nbits w : Nat) : State :=
  { s with actions := .issue (tableRequest nbits w) :: s.actions }

end Sys2Proof.Machine
end

