-- ==== Sys2Proof/Safety.lean ====
section
/-!
DEFINITION. What a claim may assume of a state, and what every step keeps.
-/

namespace Sys2Proof.Machine

/-- A channel with function `f` is consistent: settled outputs are the function of the input on the port,
all of them of that one input (R23, R47). -/
def Phase.Consistent {α β : Type} (f : α → β) (ph : Phase α β) : Prop :=
  ∀ v ∈ ph.input, ∀ out ∈ ph.outputs, out = f v

/-- A channel is quiet: it is not inside a settle interval, which is so whenever the host may act or sample
(R245). -/
def Phase.quiet {α β : Type} : Phase α β → Bool
  | .undriven => true
  | .settling _ => false
  | .settled _ _ => true

/-- Every settled channel shows its function of its present input (R23). -/
structure State.Consistent (s : State) : Prop where
  sp : s.sp.Consistent sizeProbe
  enc : s.enc.Consistent encoder
  dec : s.dec.Consistent (decoder pDecHigh)

/-- No channel is inside a settle interval: between two transactions the host has waited (R245). -/
structure State.Quiet (s : State) : Prop where
  sp : s.sp.quiet = true
  enc : s.enc.quiet = true
  dec : s.dec.quiet = true

/-- The invariant of the machine: what every output port may be between two steps. -/
structure State.Inv (s : State) : Prop where
  consistent : s.Consistent
  quiet : s.Quiet

/-- The launch premise of R241: every input of the block is driven. -/
def State.launched (s : State) : Bool :=
  s.spLead.isSome && s.encCp.isSome && s.decPacked.isSome

/-- The frame of an evaluation of channel `ch`: the ports of the two other channels, inputs and outputs, are
unchanged, and so is what the host is about to do (R23, R48, R244). There is no other state but the counter
of the free values. -/
def State.Frame (ch : Channel) (s t : State) : Prop :=
  (ch ≠ .sp → t.sp = s.sp) ∧ (ch ≠ .enc → t.enc = s.enc) ∧ (ch ≠ .dec → t.dec = s.dec) ∧ t.actions = s.actions

/-- A safe outcome: the step goes on. The block never faults (R200); what a run can stop on is a request that
is no transaction of the spec (R70, R72). -/
def Safe (o : Host.Outcome State Fault Refusal) : Prop := ∃ s, o = .next s

end Sys2Proof.Machine
end

