-- ==== Sys2Proof/Certificates/Slice0/Obligations.lean ====
section
/-!
DEFINITION. The statements for the provers, each a formalisation of numbered rules of spec/. `sample` is
what the host reads on all outputs of a channel, `Frame` says that the other two channels and the host's
list are unchanged; a `.next` in a conclusion says that the instruction completes.
-/

open Sys2Proof Sys2Proof.Machine

/-! ## Requests, decoding and encoding -/

/-- R70, R72: identifiers 0, 1 and 2 are SIZE, ENCODE and DECODE of an operand that fits the port; identifier
3 is reserved and refused, with any operand. That a step finds the transaction in State.actions is the model's
choice (log entry 3). -/
def Obligations.IdentifiersNameOperations : Prop :=
  (∀ b : Byte, decodeRequest (.transact 0 b.toNat) = .ok (.size b)) ∧
  (∀ c : CodeWord, decodeRequest (.transact 1 c.toNat) = .ok (.encode c)) ∧
  (∀ p : PackedWord, decodeRequest (.transact 2 p.toNat) = .ok (.decode p)) ∧
  (∀ s, exec .reserved s = .refused .reservedIdentifier) ∧
  ∀ (s : State) (operand : Nat) (rest : List HostAction),
    s.actions = .issue (.transact 3 operand) :: rest → step s = .refused .reservedIdentifier

/-- R72: a request whose operand does not fit the port is no transaction; the model's step refuses it by
name (log entry 5). -/
def Obligations.OperandWiderThanPortIsRefused : Prop :=
  ∀ (s : State) (n : Nat) (rest : List HostAction),
    (2 ^ 8 ≤ n → s.actions = .issue (.transact 0 n) :: rest ∨ s.actions = .issue (.drive .sp n) :: rest →
      step s = .refused (.operandTooWide .sp)) ∧
    (2 ^ 64 ≤ n → s.actions = .issue (.transact 1 n) :: rest ∨ s.actions = .issue (.drive .enc n) :: rest →
      step s = .refused (.operandTooWide .enc)) ∧
    (2 ^ 32 ≤ n → s.actions = .issue (.transact 2 n) :: rest ∨ s.actions = .issue (.drive .dec n) :: rest →
      step s = .refused (.operandTooWide .dec))

/-- R72: the source's names are other names of the three operations, and no other name is one (R73). -/
def Obligations.SpellingsNameOperations : Prop :=
  ∀ (name : String) (o : Operation), Operation.ofSpelling name = some o ↔
    (o = .size ∧ (name = "SIZE" ∨ name = "size_of" ∨ name = "utf8Size")) ∨
    (o = .encode ∧ (name = "ENCODE" ∨ name = "encode" ∨ name = "utf8Encode")) ∨
    (o = .decode ∧ (name = "DECODE" ∨ name = "decode" ∨ name = "utf8Decode"))

/-- Words written out from the bit patterns of R63, R64 and R65 decode to the forms they stand for. -/
def Obligations.WordsWrittenOutDecode : Prop :=
  decodeRequest (.transact 0 0xE2) = .ok (.size 0xE2) ∧
  decodeRequest (.drive .sp 0b11110101) = .ok (.sp4 0b101) ∧
  decodeRequest (.drive .sp 0b10100101) = .ok (.spInvCont 0b100101) ∧
  decodeRequest (.drive .enc 0x7FF) = .ok (.enc2 0x7FF) ∧
  decodeRequest (.drive .enc 0x10FFFF) = .ok (.enc4High 0xFFFF) ∧
  decodeRequest (.drive .dec 0b11110000100100001000110110001000) = .ok (.dec4 0 0x90 0x8D 0x88) ∧
  decodeRequest (.drive .dec 0b00000000000000001101000010011000) = .ok (.dec2 0 0b10000 0x98)

/-- Every well-formed instruction, with every operand, decodes from its encoding, under both settings of
`P_DEC_HIGH`. -/
def Obligations.DecodeOfEncodeIsIdentity : Prop :=
  ∀ (h : DecHigh) (i : Instr), i.wellFormed h = true → decodeRequestUnder h (encodeRequest i) = .ok i

/-- What decodes is well formed, and encodes to the request it came from: no bit of a driven word or an operand
is lost. Only RESERVED, whose row has no operand, forgets one. -/
def Obligations.DecodedRequestEncodesBack : Prop :=
  ∀ (h : DecHigh) (r : Request) (i : Instr), decodeRequestUnder h r = .ok i →
    i.wellFormed h = true ∧ (i ≠ .reserved → encodeRequest i = r)

/-- R69: every value of every input port selects a form, and its evaluation completes; so does every
transaction but the reserved one. -/
def Obligations.EveryInputValueIsEvaluated : Prop :=
  ∀ s : State,
    (∀ b : Byte, ∃ i t, decodeRequest (.drive .sp b.toNat) = .ok i ∧ exec i s = .next t ∧
      t.sample .sp = .size (sizeProbe b).size (sizeProbe b).err) ∧
    (∀ c : CodeWord, ∃ i t, decodeRequest (.drive .enc c.toNat) = .ok i ∧ exec i s = .next t ∧
      t.sample .enc = .encode (encoder c).packed (encoder c).len (encoder c).err) ∧
    (∀ p : PackedWord, ∃ i t, decodeRequest (.drive .dec p.toNat) = .ok i ∧ exec i s = .next t ∧
      t.sample .dec = .decode (decoder pDecHigh p).cp (decoder pDecHigh p).err)

/-! ## Channel SP -/

/-- R100: SIZE completes in every state; `sp_size` by the ranges of the lead byte, `sp_err` 1 exactly for
size 0; nothing of the other channels changes. -/
def Obligations.SizeClassifiesLeadByte : Prop :=
  ∀ (b : Byte) (s : State), ∃ t, exec (.size b) s = .next t ∧ t.spLead = some b ∧ s.Frame .sp t ∧
    t.spSize = (if b.toNat < 0x80 then 1 else if b.toNat < 0xC0 then 0 else if b.toNat < 0xE0 then 2
      else if b.toNat < 0xF0 then 3 else if b.toNat < 0xF8 then 4 else 0) ∧
    t.spErr = (if t.spSize = 0 then 1 else 0)

/-- R101 to R105: each SP form completes in every state with its word on the port, its size and its error, and
SIZE of that word gives the same state. -/
def Obligations.SpFormsGiveTheirSizes : Prop :=
  ∀ s : State,
    (∀ x : BitVec 3, ∃ t, exec (.sp4 x) s = .next t ∧ exec (.size (0b11110#5 ++ x)) s = .next t ∧
      t.spLead = some (0b11110#5 ++ x) ∧ t.sample .sp = .size 4 0 ∧ s.Frame .sp t) ∧
    (∀ x : BitVec 4, ∃ t, exec (.sp3 x) s = .next t ∧ exec (.size (0b1110#4 ++ x)) s = .next t ∧
      t.spLead = some (0b1110#4 ++ x) ∧ t.sample .sp = .size 3 0 ∧ s.Frame .sp t) ∧
    (∀ x : BitVec 5, ∃ t, exec (.sp2 x) s = .next t ∧ exec (.size (0b110#3 ++ x)) s = .next t ∧
      t.spLead = some (0b110#3 ++ x) ∧ t.sample .sp = .size 2 0 ∧ s.Frame .sp t) ∧
    (∀ x : BitVec 7, ∃ t, exec (.sp1 x) s = .next t ∧ exec (.size (0b0#1 ++ x)) s = .next t ∧
      t.spLead = some (0b0#1 ++ x) ∧ t.sample .sp = .size 1 0 ∧ s.Frame .sp t) ∧
    (∀ x : BitVec 6, ∃ t, exec (.spInvCont x) s = .next t ∧ exec (.size (0b10#2 ++ x)) s = .next t ∧
      t.spLead = some (0b10#2 ++ x) ∧ t.sample .sp = .size 0 1 ∧ s.Frame .sp t) ∧
    (∀ x : BitVec 3, ∃ t, exec (.spInvMalformed x) s = .next t ∧ exec (.size (0b11111#5 ++ x)) s = .next t ∧
      t.spLead = some (0b11111#5 ++ x) ∧ t.sample .sp = .size 0 1 ∧ s.Frame .sp t)

/-- R106: the four tests of the ladder exclude each other; the rows in any order select the same form; and the
sizes are the table of high and low nibbles. -/
def Obligations.SizeLadderOrderNeverMatters : Prop :=
  (∀ b : Byte,
    ([b.extractLsb 7 3 == 0b11110#5, b.extractLsb 7 4 == 0b1110#4, b.extractLsb 7 5 == 0b110#3,
      b.extractLsb 7 7 == 0b0#1].count true) ≤ 1) ∧
  (∀ (rows : List (FormRow SpForm 8)) (b : Byte), rows.Perm spRows → firstForm .malformed b rows = selectSp b) ∧
  ∀ b : Byte, (sizeProbe b).size =
    (if b.extractLsb 7 4 ≤ 0x7#4 then 1 else if b.extractLsb 7 4 ≤ 0xB#4 then 0
     else if b.extractLsb 7 4 ≤ 0xD#4 then 2 else if b.extractLsb 7 4 = 0xE#4 then 3
     else if b.extractLsb 3 0 ≤ 0x7#4 then 4 else 0)

/-- R107: SIZE changes nothing but its own channel, gives one of 1 to 4 or the invalid signal, and 0 is
unambiguous. -/
def Obligations.SizeZeroExactlyOnInvalid : Prop :=
  ∀ (b : Byte) (s t : State), exec (.size b) s = .next t →
    s.Frame .sp t ∧ t.spSize ≤ 4 ∧ (t.spSize = 0 ↔ t.spErr = 1) ∧ (t.spSize ≠ 0 ↔ t.spErr = 0)

/-- R62: every byte is of exactly one class, and the class is given by the bit pattern. -/
def Obligations.ByteClassByBitPattern : Prop :=
  ∀ b : Byte,
    (byteClass b = .lead1 ↔ b.extractLsb 7 7 = 0b0#1) ∧
    (byteClass b = .continuation ↔ b.extractLsb 7 6 = 0b10#2) ∧
    (byteClass b = .lead2 ↔ b.extractLsb 7 5 = 0b110#3) ∧
    (byteClass b = .lead3 ↔ b.extractLsb 7 4 = 0b1110#4) ∧
    (byteClass b = .lead4 ↔ b.extractLsb 7 3 = 0b11110#5) ∧
    (byteClass b = .malformed ↔ b.extractLsb 7 3 = 0b11111#5)

/-! ## Channel ENC -/

/-- R121 to R126, R128: ENCODE completes in every state; by the magnitude of all 64 bits, the packed bytes of
the form, the length and the error; nothing of the other channels changes. -/
def Obligations.EncodeByMagnitude : Prop :=
  ∀ (c : CodeWord) (s : State), ∃ t, exec (.encode c) s = .next t ∧ t.encCp = some c ∧ s.Frame .enc t ∧
    (c.toNat ≤ 0x7F → t.sample .enc = .encode (c.setWidth 32) 1 0) ∧
    (0x80 ≤ c.toNat ∧ c.toNat ≤ 0x7FF → t.sample .enc =
      .encode (((0b110#3 ++ c.extractLsb 10 6) ++ (0b10#2 ++ c.extractLsb 5 0)).setWidth 32) 2 0) ∧
    (0x800 ≤ c.toNat ∧ c.toNat ≤ 0xFFFF → t.sample .enc =
      .encode (((0b1110#4 ++ c.extractLsb 15 12) ++ (0b10#2 ++ c.extractLsb 11 6)
        ++ (0b10#2 ++ c.extractLsb 5 0)).setWidth 32) 3 0) ∧
    (0x10000 ≤ c.toNat ∧ c.toNat ≤ 0x10FFFF → t.sample .enc =
      .encode (((0b11110#5 ++ c.extractLsb 20 18) ++ (0b10#2 ++ c.extractLsb 17 12)
        ++ (0b10#2 ++ c.extractLsb 11 6) ++ (0b10#2 ++ c.extractLsb 5 0)).setWidth 32) 4 0) ∧
    (0x10FFFF < c.toNat → t.sample .enc = .encode 0 0 1)

/-- R64, R121 to R125: each ENC form of well-formed operands completes in every state, with its code point on
the port and the value of its bytes as a number. -/
def Obligations.EncFormsPackTheirBytes : Prop :=
  ∀ s : State,
    (∀ c : BitVec 7, ∃ t, exec (.enc1 c) s = .next t ∧ t.encCp = some (c.setWidth 64) ∧ s.Frame .enc t ∧
      t.encPacked.toNat = c.toNat ∧ t.encLen = 1 ∧ t.encErr = 0) ∧
    (∀ c : BitVec 11, 0x80 ≤ c.toNat →
      ∃ t, exec (.enc2 c) s = .next t ∧ t.encCp = some (c.setWidth 64) ∧ s.Frame .enc t ∧
        t.encPacked.toNat = (0xC0 + c.toNat / 64) * 256 + (0x80 + c.toNat % 64) ∧
        t.encLen = 2 ∧ t.encErr = 0) ∧
    (∀ c : BitVec 16, 0x800 ≤ c.toNat →
      ∃ t, exec (.enc3 c) s = .next t ∧ t.encCp = some (c.setWidth 64) ∧ s.Frame .enc t ∧
        t.encPacked.toNat = (0xE0 + c.toNat / 4096) * 65536 + (0x80 + c.toNat / 64 % 64) * 256
          + (0x80 + c.toNat % 64) ∧
        t.encLen = 3 ∧ t.encErr = 0) ∧
    (∀ c : BitVec 20, 0x10000 ≤ c.toNat →
      ∃ t, exec (.enc4Low c) s = .next t ∧ t.encCp = some (c.setWidth 64) ∧ s.Frame .enc t ∧
        t.encPacked.toNat = (0xF0 + c.toNat / 262144) * 16777216 + (0x80 + c.toNat / 4096 % 64) * 65536
          + (0x80 + c.toNat / 64 % 64) * 256 + (0x80 + c.toNat % 64) ∧
        t.encLen = 4 ∧ t.encErr = 0) ∧
    (∀ c : BitVec 16, ∃ t, exec (.enc4High c) s = .next t ∧
      t.encCp = some (BitVec.ofNat 64 (0x100000 + c.toNat)) ∧ s.Frame .enc t ∧
      t.encPacked.toNat = 0xF4 * 16777216 + (0x80 + c.toNat / 4096) * 65536
        + (0x80 + c.toNat / 64 % 64) * 256 + (0x80 + c.toNat % 64) ∧
      t.encLen = 4 ∧ t.encErr = 0) ∧
    (∀ c : CodeWord, 0x10FFFF < c.toNat →
      ∃ t, exec (.encFail c) s = .next t ∧ t.encCp = some c ∧ s.Frame .enc t ∧ t.sample .enc = .encode 0 0 1)

/-- R64: the mask and match rows of channel ENC, in order, select by the ranges of the table. -/
def Obligations.EncRowsSelectByRange : Prop :=
  ∀ c : CodeWord,
    (selectEnc c = .one ↔ c.toNat ≤ 0x7F) ∧
    (selectEnc c = .two ↔ 0x80 ≤ c.toNat ∧ c.toNat ≤ 0x7FF) ∧
    (selectEnc c = .three ↔ 0x800 ≤ c.toNat ∧ c.toNat ≤ 0xFFFF) ∧
    (selectEnc c = .fourLow ↔ 0x10000 ≤ c.toNat ∧ c.toNat ≤ 0xFFFFF) ∧
    (selectEnc c = .fourHigh ↔ 0x100000 ≤ c.toNat ∧ c.toNat ≤ 0x10FFFF) ∧
    (selectEnc c = .fail ↔ 0x110000 ≤ c.toNat)

/-- R41, R42, R68: the packed value of an encodable code point is the bytes of the Encoder's table, most
significant first and right-aligned; byte k is at bits [8(N-k)+7 : 8(N-k)], and every bit above is 0. -/
def Obligations.EncodedBytesAreBigEndian : Prop :=
  ∀ c : CodeWord, c.toNat ≤ 0x10FFFF →
    (encoder c).packed = packBytes (encoderBytes c) ∧
    (encoder c).len.toNat = (encoderBytes c).length ∧
    (∀ k, 1 ≤ k → k ≤ (encoderBytes c).length →
      (encoderBytes c)[k - 1]? = some (packedByte (encoder c).packed (encoderBytes c).length k)) ∧
    (encoder c).packed.toNat < 2 ^ (8 * (encoderBytes c).length)

/-- R61: the layout of the packed value, bit field by bit field, for each length. -/
def Obligations.PackedLayoutByLength : Prop :=
  ∀ c : CodeWord, let p := (encoder c).packed
    ((encoder c).len = 1 → p.extractLsb 31 8 = 0 ∧ p.extractLsb 7 7 = 0b0#1 ∧
      p.extractLsb 6 0 = c.extractLsb 6 0) ∧
    ((encoder c).len = 2 → p.extractLsb 31 16 = 0 ∧ p.extractLsb 15 13 = 0b110#3 ∧
      p.extractLsb 12 8 = c.extractLsb 10 6 ∧ p.extractLsb 7 6 = 0b10#2 ∧
      p.extractLsb 5 0 = c.extractLsb 5 0) ∧
    ((encoder c).len = 3 → p.extractLsb 31 24 = 0 ∧ p.extractLsb 23 20 = 0b1110#4 ∧
      p.extractLsb 19 16 = c.extractLsb 15 12 ∧ p.extractLsb 15 14 = 0b10#2 ∧
      p.extractLsb 13 8 = c.extractLsb 11 6 ∧ p.extractLsb 7 6 = 0b10#2 ∧
      p.extractLsb 5 0 = c.extractLsb 5 0) ∧
    ((encoder c).len = 4 → p.extractLsb 31 27 = 0b11110#5 ∧ p.extractLsb 26 24 = c.extractLsb 20 18 ∧
      p.extractLsb 23 22 = 0b10#2 ∧ p.extractLsb 21 16 = c.extractLsb 17 12 ∧
      p.extractLsb 15 14 = 0b10#2 ∧ p.extractLsb 13 8 = c.extractLsb 11 6 ∧
      p.extractLsb 7 6 = 0b10#2 ∧ p.extractLsb 5 0 = c.extractLsb 5 0)

/-- R43: an ASCII code point packs to itself, in one byte. -/
def Obligations.AsciiPacksToItself : Prop :=
  ∀ c : CodeWord, c.toNat ≤ 0x7F → (encoder c).packed.toNat = c.toNat ∧ (encoder c).len = 1

/-- R44: without its length, the lead byte of an Encoder output is its most significant byte that is not 0, or
0x00 for 0. -/
def Obligations.LeadByteIsTopNonzeroByte : Prop :=
  ∀ c : CodeWord, c.toNat ≤ 0x10FFFF →
    topNonzeroByte (encoder c).packed = leadByteOf (encoder c).packed (encoder c).len.toNat

/-- R129: the Encoder rejects exactly the values above 0x10FFFF; the surrogate range is encoded by the 3-byte
form like any other value. -/
def Obligations.EncoderRejectsOnlyAboveRange : Prop :=
  (∀ c : CodeWord, (encoder c).err = 1 ↔ 0x10FFFF < c.toNat) ∧
  ∀ c : CodeWord, 0xD800 ≤ c.toNat → c.toNat ≤ 0xDFFF →
    (encoder c).err = 0 ∧ (encoder c).len = 3 ∧
    (encoder c).packed.toNat =
      (0xE0 + c.toNat / 4096) * 65536 + (0x80 + c.toNat / 64 % 64) * 256 + (0x80 + c.toNat % 64)

/-- R130: the length is the shortest whose payload of 7, 11, 16 or 21 bits holds the code point; distinct code
points give distinct packed values; a packed 0 is U+0000 or the failure; the lead byte has the size of the
sequence; decoding gives the code point back. -/
def Obligations.EncoderResultProperties : Prop :=
  (∀ c : CodeWord, c.toNat ≤ 0x10FFFF →
    ((encoder c).len = 1 ↔ c.toNat < 2 ^ 7) ∧
    ((encoder c).len = 2 ↔ 2 ^ 7 ≤ c.toNat ∧ c.toNat < 2 ^ 11) ∧
    ((encoder c).len = 3 ↔ 2 ^ 11 ≤ c.toNat ∧ c.toNat < 2 ^ 16) ∧
    ((encoder c).len = 4 ↔ 2 ^ 16 ≤ c.toNat)) ∧
  (∀ c d : CodeWord, c.toNat ≤ 0x10FFFF → d.toNat ≤ 0x10FFFF →
    (encoder c).packed = (encoder d).packed → c = d) ∧
  (∀ c : CodeWord, (encoder c).packed = 0 ↔
    (c = 0 ∧ (encoder c).len = 1) ∨ (0x10FFFF < c.toNat ∧ (encoder c).len = 0)) ∧
  (∀ c : CodeWord, c.toNat ≤ 0x10FFFF →
    (sizeProbe (leadByteOf (encoder c).packed (encoder c).len.toNat)).size = (encoder c).len ∧
    (decoder pDecHigh (encoder c).packed).cp = c)

/-! ## Channel DEC -/

/-- R140, R143 to R147: the Decoder's function under each setting, by the masks and matches of the forms in
their order. -/
def Obligations.DecoderByPriorityUnderBothSettings : Prop :=
  ∀ p : PackedWord,
    decoder .ignore p =
      (if p &&& 0xF8000000 = 0xF0000000 then
        ⟨(p.extractLsb 26 24 ++ p.extractLsb 21 16 ++ p.extractLsb 13 8 ++ p.extractLsb 5 0).setWidth 64, 0⟩
      else if p &&& 0x00F00000 = 0x00E00000 then
        ⟨(p.extractLsb 19 16 ++ p.extractLsb 13 8 ++ p.extractLsb 5 0).setWidth 64, 0⟩
      else if p &&& 0x0000E000 = 0x0000C000 then ⟨(p.extractLsb 12 8 ++ p.extractLsb 5 0).setWidth 64, 0⟩
      else if p &&& 0x00000080 = 0 then ⟨(p.extractLsb 6 0).setWidth 64, 0⟩
      else ⟨0, 1⟩) ∧
    decoder .requireZero p =
      (if p &&& 0xF8000000 = 0xF0000000 then
        ⟨(p.extractLsb 26 24 ++ p.extractLsb 21 16 ++ p.extractLsb 13 8 ++ p.extractLsb 5 0).setWidth 64, 0⟩
      else if p &&& 0xFFF00000 = 0x00E00000 then
        ⟨(p.extractLsb 19 16 ++ p.extractLsb 13 8 ++ p.extractLsb 5 0).setWidth 64, 0⟩
      else if p &&& 0xFFFFE000 = 0x0000C000 then ⟨(p.extractLsb 12 8 ++ p.extractLsb 5 0).setWidth 64, 0⟩
      else if p &&& 0xFFFFFF80 = 0 then ⟨(p.extractLsb 6 0).setWidth 64, 0⟩
      else ⟨0, 1⟩)

/-- DECODE completes in every state with the IGNORE result of R140, the build parameter's value for this
hardware (R7, R26); nothing of the other channels changes. -/
def Obligations.DecodeUsesTheIgnoreSetting : Prop :=
  pDecHigh = .ignore ∧
  ∀ (p : PackedWord) (s : State), ∃ t, exec (.decode p) s = .next t ∧ t.decPacked = some p ∧ s.Frame .dec t ∧
    (p.toNat / 2 ^ 27 = 0b11110 → t.decErr = 0 ∧ t.decCp.toNat =
      p.toNat / 2 ^ 24 % 8 * 2 ^ 18 + p.toNat / 2 ^ 16 % 64 * 2 ^ 12 + p.toNat / 2 ^ 8 % 64 * 2 ^ 6
        + p.toNat % 64) ∧
    (p.toNat / 2 ^ 27 ≠ 0b11110 → p.toNat / 2 ^ 20 % 16 = 0b1110 → t.decErr = 0 ∧ t.decCp.toNat =
      p.toNat / 2 ^ 16 % 16 * 2 ^ 12 + p.toNat / 2 ^ 8 % 64 * 2 ^ 6 + p.toNat % 64) ∧
    (p.toNat / 2 ^ 27 ≠ 0b11110 → p.toNat / 2 ^ 20 % 16 ≠ 0b1110 → p.toNat / 2 ^ 13 % 8 = 0b110 →
      t.decErr = 0 ∧ t.decCp.toNat = p.toNat / 2 ^ 8 % 32 * 2 ^ 6 + p.toNat % 64) ∧
    (p.toNat / 2 ^ 27 ≠ 0b11110 → p.toNat / 2 ^ 20 % 16 ≠ 0b1110 → p.toNat / 2 ^ 13 % 8 ≠ 0b110 →
      p.toNat / 2 ^ 7 % 2 = 0 → t.decErr = 0 ∧ t.decCp.toNat = p.toNat % 128) ∧
    (p.toNat / 2 ^ 27 ≠ 0b11110 → p.toNat / 2 ^ 20 % 16 ≠ 0b1110 → p.toNat / 2 ^ 13 % 8 ≠ 0b110 →
      p.toNat / 2 ^ 7 % 2 = 1 → t.decErr = 1 ∧ t.decCp = 0)

/-- Each DEC form of well-formed operands completes in every state, with its word on the port and the value
its payload fields make as a number (R67; the forms under IGNORE). -/
def Obligations.DecFormsAssembleTheirFields : Prop :=
  ∀ s : State,
    (∀ (l : BitVec 3) (c2 c3 c4 : Byte), ∃ t, exec (.dec4 l c2 c3 c4) s = .next t ∧
      t.decPacked = some (0b11110#5 ++ l ++ c2 ++ c3 ++ c4) ∧ s.Frame .dec t ∧ t.decErr = 0 ∧
      t.decCp.toNat = l.toNat * 262144 + c2.toNat % 64 * 4096 + c3.toNat % 64 * 64 + c4.toNat % 64) ∧
    (∀ (high : BitVec 8) (l : BitVec 4) (c2 c3 : Byte),
      Instr.wellFormed pDecHigh (.dec3 high l c2 c3) = true →
      ∃ t, exec (.dec3 high l c2 c3) s = .next t ∧
        t.decPacked = some (high ++ 0b1110#4 ++ l ++ c2 ++ c3) ∧ s.Frame .dec t ∧ t.decErr = 0 ∧
        t.decCp.toNat = l.toNat * 4096 + c2.toNat % 64 * 64 + c3.toNat % 64) ∧
    (∀ (high : BitVec 16) (l : BitVec 5) (c2 : Byte), Instr.wellFormed pDecHigh (.dec2 high l c2) = true →
      ∃ t, exec (.dec2 high l c2) s = .next t ∧
        t.decPacked = some (high ++ 0b110#3 ++ l ++ c2) ∧ s.Frame .dec t ∧ t.decErr = 0 ∧
        t.decCp.toNat = l.toNat * 64 + c2.toNat % 64) ∧
    (∀ (high : BitVec 24) (x : BitVec 7), Instr.wellFormed pDecHigh (.dec1 high x) = true →
      ∃ t, exec (.dec1 high x) s = .next t ∧
        t.decPacked = some (high ++ 0b0#1 ++ x) ∧ s.Frame .dec t ∧ t.decErr = 0 ∧ t.decCp.toNat = x.toNat) ∧
    (∀ p : PackedWord, Instr.wellFormed pDecHigh (.decInv p) = true →
      ∃ t, exec (.decInv p) s = .next t ∧ t.decPacked = some p ∧ s.Frame .dec t ∧ t.sample .dec = .decode 0 1)

/-- R65: under REQUIRE_ZERO the rows are disjoint; under IGNORE a word can be taken by several rows, and then
the order decides. -/
def Obligations.DecRowsDisjointOnlyUnderRequireZero : Prop :=
  (∀ (p : PackedWord) (r₁ r₂ : FormRow DecForm 32), r₁ ∈ decRows .requireZero → r₂ ∈ decRows .requireZero →
    r₁.takes p = true → r₂.takes p = true → r₁.form = r₂.form) ∧
  ∃ (p : PackedWord) (rows : List (FormRow DecForm 32)), rows.Perm (decRows .ignore) ∧
    firstForm .invalid p rows ≠ selectDec .ignore p

/-- R141: the two top bits of a continuation byte are never read: two bytes with the same low 6 bits give the
same outputs, in every form and under both settings. -/
def Obligations.ContinuationPrefixIsNeverRead : Prop :=
  ∀ (h : DecHigh) (c2 c3 c4 d2 d3 d4 : Byte),
    c2.toNat % 64 = d2.toNat % 64 → c3.toNat % 64 = d3.toNat % 64 → c4.toNat % 64 = d4.toNat % 64 →
    (∀ l : BitVec 3, decoder h (dec4Word l c2 c3 c4) = decoder h (dec4Word l d2 d3 d4)) ∧
    (∀ (high : BitVec 8) (l : BitVec 4), Instr.wellFormed h (.dec3 high l c3 c4) = true →
      decoder h (dec3Word high l c3 c4) = decoder h (dec3Word high l d3 d4)) ∧
    (∀ (high : BitVec 16) (l : BitVec 5), Instr.wellFormed h (.dec2 high l c4) = true →
      decoder h (dec2Word high l c4) = decoder h (dec2Word high l d4))

/-- R142: nothing is rejected for being longer than it need be, or in the surrogate range: the 2-, 3- and 4-byte
sequences of every value their payload holds decode to that value without an error, under both settings. -/
def Obligations.OverlongAndSurrogateAreDecoded : Prop :=
  ∀ (h : DecHigh) (c : CodeWord),
    (c.toNat < 2 ^ 11 →
      decoder h (packBytes [leadByte2 (c.extractLsb 10 6), contByte (c.extractLsb 5 0)]) = ⟨c, 0⟩) ∧
    (c.toNat < 2 ^ 16 →
      decoder h (packBytes [leadByte3 (c.extractLsb 15 12), contByte (c.extractLsb 11 6),
        contByte (c.extractLsb 5 0)]) = ⟨c, 0⟩) ∧
    (c.toNat < 2 ^ 21 →
      decoder h (packBytes [leadByte4 (c.extractLsb 20 18), contByte (c.extractLsb 17 12),
        contByte (c.extractLsb 11 6), contByte (c.extractLsb 5 0)]) = ⟨c, 0⟩)

/-- R147: under IGNORE the error is exactly the four failed tests, and its value is 0. -/
def Obligations.DecodeInvalidExactlyWhenNoFormMatches : Prop :=
  ∀ p : PackedWord,
    ((decoder .ignore p).err = 1 ↔
      p.toNat / 2 ^ 27 ≠ 0b11110 ∧ p.toNat / 2 ^ 20 % 16 ≠ 0b1110 ∧ p.toNat / 2 ^ 13 % 8 ≠ 0b110 ∧
        p.toNat / 2 ^ 7 % 2 = 1) ∧
    ∀ h, (decoder h p).err = 1 → (decoder h p).cp = 0

/-- R148: the REQUIRE_ZERO result from the IGNORE result: the same form and value on a clean input, DEC.INV on
another, DEC.INV for DEC.INV. -/
def Obligations.SettingsAgreeExactlyOnCleanInputs : Prop :=
  ∀ p : PackedWord,
    (∀ n, decFormLength (selectDec .ignore p) = some n → clean n p = true →
      selectDec .requireZero p = selectDec .ignore p ∧ decoder .requireZero p = decoder .ignore p) ∧
    (∀ n, decFormLength (selectDec .ignore p) = some n → clean n p = false →
      selectDec .requireZero p = .invalid ∧ decoder .requireZero p = ⟨0, 1⟩) ∧
    (selectDec .ignore p = .invalid →
      selectDec .requireZero p = .invalid ∧ decoder .requireZero p = ⟨0, 1⟩)

/-- R149: the value is at most 0x1FFFFF, of 21 bits by DEC.4, 16 by DEC.3, 11 by DEC.2 and 7 by DEC.1, and every
value from 0x110000 to 0x1FFFFF is given by some word of DEC.4 without an error. -/
def Obligations.DecodedValueRange : Prop :=
  (∀ (h : DecHigh) (p : PackedWord), (decoder h p).cp.toNat ≤ 0x1FFFFF ∧
    (selectDec h p = .three → (decoder h p).cp.toNat < 2 ^ 16) ∧
    (selectDec h p = .two → (decoder h p).cp.toNat < 2 ^ 11) ∧
    (selectDec h p = .one → (decoder h p).cp.toNat < 2 ^ 7)) ∧
  ∀ (h : DecHigh) (v : CodeWord), 0x110000 ≤ v.toNat → v.toNat ≤ 0x1FFFFF →
    ∃ p, selectDec h p = .four ∧ decoder h p = ⟨v, 0⟩

/-- R153: a result of 0 without an error occurs for 0 and for the words the rule lists; failure is the error
output, equivalently the form DEC.INV. -/
def Obligations.ZeroResultIsNotFailure : Prop :=
  (∀ p ∈ ([0x00000000, 0x0000C080, 0x00E08080, 0xF0808080, 0x0000C000, 0x00E00000] : List PackedWord),
    ∀ h, decoder h p = ⟨0, 0⟩) ∧
  decoder .ignore 0x00000100 = ⟨0, 0⟩ ∧
  ∀ (h : DecHigh) (p : PackedWord), (decoder h p).err = 1 ↔ selectDec h p = .invalid

/-! ## Laws between the channels -/

/-- R151: for every code point up to 0x10FFFF, decoding the encoding gives it back without an error, under both
settings, and as two evaluations of the machine from any state. -/
def Obligations.DecodeUndoesEncode : Prop :=
  (∀ (h : DecHigh) (c : CodeWord), c.toNat ≤ 0x10FFFF → decoder h (encoder c).packed = ⟨c, 0⟩) ∧
  ∀ (c : CodeWord) (s : State), c.toNat ≤ 0x10FFFF → ∃ t u,
    exec (.encode c) s = .next t ∧ exec (.decode t.encPacked) t = .next u ∧ u.sample .dec = .decode c 0

/-- R152: for an input the Decoder accepts, encoding its value gives it back exactly when it is the Encoder's
output of some code point; and the rule's four kinds of input for which it is not. -/
def Obligations.EncodeUndoesDecodeExactlyOnImage : Prop :=
  (∀ (h : DecHigh) (x : PackedWord), (decoder h x).err = 0 →
    (((encoder (decoder h x).cp).packed = x ∧ (encoder (decoder h x).cp).err = 0) ↔
      ∃ c : CodeWord, c.toNat ≤ 0x10FFFF ∧ (encoder c).packed = x)) ∧
  (∀ h, decoder h 0x0000C0A4 = ⟨0x24, 0⟩) ∧ (encoder 0x24).packed = 0x00000024 ∧
  (∀ h, decoder h 0x0000C224 = ⟨0xA4, 0⟩) ∧ (encoder 0xA4).packed = 0x0000C2A4 ∧
  (∀ h, decoder h 0xF4908080 = ⟨0x110000, 0⟩) ∧ (encoder 0x110000).err = 1 ∧
  decoder .ignore 0x12345678 = ⟨0x78, 0⟩ ∧ (encoder 0x78).packed = 0x00000078

/-- R108: for every code point up to 0x10FFFF, SIZE of the lead byte of its encoding is the length of the
encoding, as two evaluations of the machine from any state. -/
def Obligations.SizeOfLeadByteIsEncodedLength : Prop :=
  ∀ (c : CodeWord) (s : State), c.toNat ≤ 0x10FFFF → ∃ t u,
    exec (.encode c) s = .next t ∧ 1 ≤ t.encLen.toNat ∧
    exec (.size (leadByteOf t.encPacked t.encLen.toNat)) t = .next u ∧ u.sample .sp = .size t.encLen 0

/-- The machine written form by form (R101 to R105, R121 to R125, R143 to R147) and the machine of the three
operations' ladders (R100, R120, R140) are the same. For a form whose operands are not well formed this is the
model's choice: it drives its word, and the channel shows its function of that word (log entry 8). -/
def Obligations.FormsRefineTransactions : Prop :=
  ∀ (i : Instr) (s : State), exec i s = exec i.asTransaction s

/-! ## Errors -/

/-- R201, R202, R203: the error kind of each channel and its exact cause, with the values recorded. Nothing else
is recorded: the input is still on its port, and nothing outside the channel changes. -/
def Obligations.ErrorKindsByCause : Prop :=
  ∀ s : State,
    (∀ b : Byte, ∃ t, exec (.size b) s = .next t ∧ t.spLead = some b ∧ s.Frame .sp t ∧
      (t.error .sp = some .invalidLeadByte ↔ byteClass b = .continuation ∨ byteClass b = .malformed) ∧
      (t.error .sp = some .invalidLeadByte → t.sample .sp = .size 0 1) ∧
      (t.error .sp = none ↔ t.spErr = 0)) ∧
    (∀ c : CodeWord, ∃ t, exec (.encode c) s = .next t ∧ t.encCp = some c ∧ s.Frame .enc t ∧
      (t.error .enc = some .codePointOutOfRange ↔ 0x10FFFF < c.toNat) ∧
      (t.error .enc = some .codePointOutOfRange → t.sample .enc = .encode 0 0 1) ∧
      (t.error .enc = none ↔ t.encErr = 0)) ∧
    (∀ p : PackedWord, ∃ t, exec (.decode p) s = .next t ∧ t.decPacked = some p ∧ s.Frame .dec t ∧
      (t.error .dec = some .invalidLeadByte ↔ selectDec pDecHigh p = .invalid) ∧
      (t.error .dec = some .invalidLeadByte → t.sample .dec = .decode 0 1) ∧
      (t.error .dec = none ↔ t.decErr = 0))

/-- R204: which sentinel tells failure from success: the size always; the packed 0 with the length or with the
input; the decoded 0 never, not even with the input. -/
def Obligations.SentinelAmbiguityByChannel : Prop :=
  (∀ b, (sizeProbe b).err = 1 ↔ (sizeProbe b).size = 0) ∧
  (∀ c, (encoder c).err = 1 ↔ (encoder c).len = 0) ∧
  (∀ c, (encoder c).err = 1 ↔ (encoder c).packed = 0 ∧ c ≠ 0) ∧
  (∃ c, (encoder c).packed = 0 ∧ (encoder c).err = 0) ∧
  ∃ p : PackedWord, p ≠ 0 ∧ decoder pDecHigh p = ⟨0, 0⟩

/-- R200: an instruction goes on in every state, whatever its operand, but for the reserved identifier: no error
stops a run. -/
def Obligations.OnlyTheReservedIdentifierStops : Prop :=
  ∀ (i : Instr) (s : State), (∃ t, exec i s = .next t) ↔ i ≠ .reserved

/-! ## The whole machine -/

/-- When the host's next request decodes to `i`, a step is `i` at the state without that request. That a step takes
its request from the head of State.actions is the model's choice (log entry 3); R245 and R248 make a transaction
one step. -/
def Obligations.StepRunsTheDecodedInstruction : Prop :=
  ∀ (s : State) (r : Request) (rest : List HostAction) (i : Instr),
    s.actions = .issue r :: rest → decodeRequest r = .ok i → step s = exec i { s with actions := rest }

/-- The model's steps that run no instruction: with no action pending, or a floated port, time passes and no
other port changes; a request to drive several ports at once is that evaluation (log entries 1 and 3). -/
def Obligations.StepsOfTheHostsOtherActions : Prop :=
  ∀ (s : State) (rest : List HostAction),
    (∀ lead cp packed, s.actions = .together lead cp packed :: rest →
      step s = execTogether lead cp packed { s with actions := rest }) ∧
    (s.actions = [] → ∃ t, step s = .next t ∧ t.sp = s.sp ∧ t.enc = s.enc ∧ t.dec = s.dec ∧ t.actions = []) ∧
    (∀ ch, s.actions = .float ch :: rest →
      ∃ t, step s = .next t ∧ t.actions = rest ∧
        (ch = .sp → t.sp = .undriven ∧ t.enc = s.enc ∧ t.dec = s.dec) ∧
        (ch = .enc → t.sp = s.sp ∧ t.enc = .undriven ∧ t.dec = s.dec) ∧
        (ch = .dec → t.sp = s.sp ∧ t.enc = s.enc ∧ t.dec = .undriven))

/-- After reset no input is driven and no action pends (the model's choice for what R29 and R240 leave without
a value: log entries 1 and 3). -/
def Obligations.ResetDrivesNoInput : Prop :=
  State.reset.spLead = none ∧ State.reset.encCp = none ∧ State.reset.decPacked = none ∧
    State.reset.actions = [] ∧ core.reset = State.reset

/-- The invariant holds at reset. What the reset state is, no input driven and no action pending, is the model's
choice for what R29 and R240 leave without a value (log entries 1 and 3). -/
def Obligations.ResetMeetsTheInvariant : Prop := State.reset.Inv

/-- Every step keeps the invariant: each settled channel shows its function of its present input, all outputs
of one input, and no channel is inside a settle interval (R23, R47, R245). That a step takes the host's next action,
and that no step ends inside a settle interval, is the model's choice (log entries 3 and 4). -/
def Obligations.StepKeepsOutputsTheFunctionOfInputs : Prop :=
  ∀ s t : State, s.Inv → step s = .next t → t.Inv

/-- R24: under the invariant, the output bits the rules never set are 0 on every settled channel. -/
def Obligations.UnsetOutputBitsAreZero : Prop :=
  ∀ s : State, s.Inv → s.launched = true →
    s.spSize.extractLsb 7 3 = 0 ∧ s.encLen.extractLsb 7 3 = 0 ∧ s.decCp.extractLsb 63 21 = 0 ∧
    (s.encLen.toNat < 4 → s.encPacked.toNat < 2 ^ (8 * s.encLen.toNat))

/-- R244: an evaluation of one channel leaves the ports of the two others as they are, for every instruction;
and so does the drive that begins it, before anything settles. -/
def Obligations.ChannelsAreIsolated : Prop :=
  (∀ (i : Instr) (s t : State) (ch : Channel), exec i s = .next t → i.channel = some ch → s.Frame ch t) ∧
  ∀ s : State, (∀ b, s.Frame .sp (s.driveSp b)) ∧ (∀ c, s.Frame .enc (s.driveEnc c)) ∧
    ∀ p, s.Frame .dec (s.driveDec p)

/-- R23: what a host samples after an evaluation does not depend on the state before it, so not on an earlier
input, on another channel, or on how often a channel was evaluated. -/
def Obligations.OutputsDependOnTheInputAlone : Prop :=
  ∀ (i : Instr) (s₁ s₂ t₁ t₂ : State) (ch : Channel), i.channel = some ch →
    exec i s₁ = .next t₁ → exec i s₂ = .next t₂ → t₁.sample ch = t₂.sample ch

/-- R48: an evaluation has no effect but on its own channel; repeated, it changes no port; and whatever is
evaluated in between, the same input gives the same outputs. -/
def Obligations.EvaluationIsIdempotent : Prop :=
  ∀ (i : Instr) (s t : State) (ch : Channel), exec i s = .next t → i.channel = some ch →
    s.Frame ch t ∧
    (∀ u, exec i t = .next u → u.sp = t.sp ∧ u.enc = t.enc ∧ u.dec = t.dec ∧ u.actions = t.actions) ∧
    ∀ (j : Instr) (u v : State), exec j t = .next u → exec i u = .next v → v.sample ch = t.sample ch

/-- R51, R213: evaluations of different channels in either order give the same state. -/
def Obligations.DifferentChannelsCommute : Prop :=
  ∀ (i j : Instr) (s a ab b ba : State), i.channel ≠ j.channel →
    exec i s = .next a → exec j a = .next ab → exec j s = .next b → exec i b = .next ba → ab = ba

/-- R213: driving all three inputs at once gives every channel the ports that the three evaluations one after
another give it; driving any of them, each driven channel shows its function of its own input and each other
channel stays as it is. -/
def Obligations.ConcurrentEvaluationEqualsSequential : Prop :=
  (∀ (b : Byte) (c : CodeWord) (p : PackedWord) (s : State), ∃ t t₁ t₂ t₃,
    execTogether (some b) (some c) (some p) s = .next t ∧
    exec (.size b) s = .next t₁ ∧ exec (.encode c) t₁ = .next t₂ ∧ exec (.decode p) t₂ = .next t₃ ∧
    t.sp = t₃.sp ∧ t.enc = t₃.enc ∧ t.dec = t₃.dec ∧ t.actions = t₃.actions ∧ t.launched = true) ∧
  ∀ (lead : Option Byte) (cp : Option CodeWord) (packed : Option PackedWord) (s : State), ∃ t,
    execTogether lead cp packed s = .next t ∧ t.actions = s.actions ∧
    (lead = none → t.sp = s.sp) ∧ (cp = none → t.enc = s.enc) ∧ (packed = none → t.dec = s.dec) ∧
    (∀ b, lead = some b → t.spLead = some b ∧
      t.sample .sp = .size (sizeProbe b).size (sizeProbe b).err) ∧
    (∀ c, cp = some c → t.encCp = some c ∧
      t.sample .enc = .encode (encoder c).packed (encoder c).len (encoder c).err) ∧
    (∀ p, packed = some p → t.decPacked = some p ∧
      t.sample .dec = .decode (decoder pDecHigh p).cp (decoder pDecHigh p).err)

/-- R243, R245: a transaction drives its port, and then its channel settles to its function of the input. Between
the two the channel has no settled outputs (the model's form of "unspecified": log entry 2). That this holds also
of a drive of the value already settled on the port is the model's choice (log entry 11). -/
def Obligations.TransactionDrivesThenSettles : Prop :=
  ∀ s : State,
    (∀ b, (s.driveSp b).spLead = some b ∧ (s.driveSp b).sp.outputs = none ∧
      exec (.size b) s = .next ((s.driveSp b).settleSp (sizeProbe b))) ∧
    (∀ c, (s.driveEnc c).encCp = some c ∧ (s.driveEnc c).enc.outputs = none ∧
      exec (.encode c) s = .next ((s.driveEnc c).settleEnc (encoder c))) ∧
    (∀ p, (s.driveDec p).decPacked = some p ∧ (s.driveDec p).dec.outputs = none ∧
      exec (.decode p) s = .next ((s.driveDec p).settleDec (decoder pDecHigh p)))
end

