-- ==== Sys2Proof/Laws/Bits.lean ====
section
/-!
SUPPORT. Bit fields, concatenations and masks as arithmetic on natural numbers: what a proof about the
channels needs to hand a goal to omega.
-/

namespace Sys2Proof.Bits

/-- A concatenation as a number. -/
theorem toNat_append_add {m n : Nat} (x : BitVec m) (y : BitVec n) :
    (x ++ y).toNat = x.toNat * 2 ^ n + y.toNat := by
  rw [BitVec.toNat_append, ← Nat.shiftLeft_add_eq_or_of_lt y.isLt, Nat.shiftLeft_eq]

/-- A bit field as a number. -/
theorem toNat_extractLsb_div {w : Nat} (hi lo : Nat) (v : BitVec w) :
    (v.extractLsb hi lo).toNat = v.toNat / 2 ^ lo % 2 ^ (hi - lo + 1) := by
  rw [BitVec.extractLsb_toNat, Nat.shiftRight_eq_div_pow]

/-- Masking a number to the field of `k` bits at bit `lo`. -/
theorem and_field (x k lo : Nat) : x &&& ((2 ^ k - 1) <<< lo) = (x / 2 ^ lo % 2 ^ k) * 2 ^ lo := by
  rw [← Nat.shiftRight_eq_div_pow, ← Nat.shiftLeft_eq]
  apply Nat.eq_of_testBit_eq
  intro i
  simp only [Nat.testBit_and, Nat.testBit_shiftLeft, Nat.testBit_two_pow_sub_one, Nat.testBit_mod_two_pow,
    Nat.testBit_shiftRight]
  by_cases h : lo ≤ i
  · simp [h, Bool.and_comm]
  · simp [h]

/-- A mask and match test on one field, as arithmetic. -/
theorem mask_match_iff {w : Nat} (v mask value : BitVec w) (k lo field : Nat)
    (hm : mask.toNat = (2 ^ k - 1) <<< lo) (hv : value.toNat = field * 2 ^ lo) :
    v &&& mask = value ↔ v.toNat / 2 ^ lo % 2 ^ k = field := by
  rw [← BitVec.toNat_inj, BitVec.toNat_and, hm, hv, and_field]
  exact ⟨fun h => Nat.eq_of_mul_eq_mul_right (Nat.two_pow_pos lo) h, fun h => by rw [h]⟩

/-- A field equals a literal when their numbers are equal. -/
theorem extractLsb_eq_iff {w : Nat} (hi lo : Nat) (v : BitVec w) (x : BitVec (hi - lo + 1)) :
    v.extractLsb hi lo = x ↔ v.toNat / 2 ^ lo % 2 ^ (hi - lo + 1) = x.toNat := by
  rw [← BitVec.toNat_inj, toNat_extractLsb_div]

/-- A concatenation equals another of the same widths when its parts do. -/
theorem append_inj {m n : Nat} {x x' : BitVec m} {y y' : BitVec n} :
    x ++ y = x' ++ y' ↔ x = x' ∧ y = y' := by
  constructor
  · intro h
    have h' := congrArg BitVec.toNat h
    rw [toNat_append_add, toNat_append_add] at h'
    have hy := y.isLt
    have hy' := y'.isLt
    have hp : 0 < 2 ^ n := Nat.two_pow_pos n
    have h1 : x.toNat = x'.toNat := by
      have := congrArg (· / 2 ^ n) h'
      simpa [Nat.mul_comm _ (2 ^ n), Nat.mul_add_div hp, Nat.div_eq_of_lt hy, Nat.div_eq_of_lt hy'] using this
    refine ⟨BitVec.eq_of_toNat_eq h1, BitVec.eq_of_toNat_eq ?_⟩
    rw [h1] at h'
    exact Nat.add_left_cancel h'
  · rintro ⟨rfl, rfl⟩; rfl

end Sys2Proof.Bits
end

