-- ==== Sys2Proof/Laws/Decode.lean ====
section
/-!
SUPPORT. Small lemmas of the decoder: the first row that takes a word, and the fit of a literal to a port.
-/

namespace Sys2Proof

@[simp] theorem firstForm_nil {φ : Type} {w : Nat} (z : φ) (v : BitVec w) : firstForm z v [] = z := rfl

theorem firstForm_cons_of_takes {φ : Type} {w : Nat} (z : φ) {v : BitVec w} {row : FormRow φ w}
    (rows : List (FormRow φ w)) (h : row.takes v = true) : firstForm z v (row :: rows) = row.form := by
  simp [firstForm, h]

theorem firstForm_cons_of_not_takes {φ : Type} {w : Nat} (z : φ) {v : BitVec w} {row : FormRow φ w}
    (rows : List (FormRow φ w)) (h : row.takes v = false) :
    firstForm z v (row :: rows) = firstForm z v rows := by
  simp [firstForm, h]

/-- The first form is that of a row which takes the word, or the last resort where no row does. -/
theorem firstForm_spec {φ : Type} {w : Nat} (z : φ) (v : BitVec w) (rows : List (FormRow φ w)) :
    (∃ row ∈ rows, row.takes v = true ∧ firstForm z v rows = row.form) ∨
      ((∀ row ∈ rows, row.takes v = false) ∧ firstForm z v rows = z) := by
  induction rows with
  | nil => exact .inr ⟨by simp, rfl⟩
  | cons row rows ih =>
    cases h : row.takes v with
    | true => exact .inl ⟨row, by simp, h, firstForm_cons_of_takes z rows h⟩
    | false =>
      rw [firstForm_cons_of_not_takes z rows h]
      rcases ih with ⟨r, hr, ht, hf⟩ | ⟨hn, hf⟩
      · exact .inl ⟨r, by simp [hr], ht, hf⟩
      · exact .inr ⟨by simpa [h] using hn, hf⟩

theorem fitPort_of_lt (ch : Channel) {w n : Nat} (h : n < 2 ^ w) :
    fitPort ch w n = .ok (BitVec.ofNat w n) := by simp [fitPort, h]

theorem fitPort_of_ge (ch : Channel) {w n : Nat} (h : 2 ^ w ≤ n) :
    fitPort ch w n = .error (.operandTooWide ch) := by simp [fitPort, Nat.not_lt.mpr h]

/-- A port's own value always fits it. -/
@[simp] theorem fitPort_toNat (ch : Channel) {w : Nat} (v : BitVec w) : fitPort ch w v.toNat = .ok v := by
  simp [fitPort, v.isLt]

theorem fitPort_ok_iff (ch : Channel) {w n : Nat} (v : BitVec w) :
    fitPort ch w n = .ok v ↔ n = v.toNat := by
  constructor
  · intro h
    unfold fitPort at h
    split at h
    · rename_i hn
      cases h
      simp [Nat.mod_eq_of_lt hn]
    · cases h
  · rintro rfl; simp

end Sys2Proof
end

