-- ==== Sys2Proof/Laws/State.lean ====
section
/-!
SUPPORT. One lemma per field per update of State, and the fields of the reset state.
-/

namespace Sys2Proof.Machine

@[simp] theorem State.tick_sp (s : State) : s.tick.sp = s.sp := rfl
@[simp] theorem State.tick_enc (s : State) : s.tick.enc = s.enc := rfl
@[simp] theorem State.tick_dec (s : State) : s.tick.dec = s.dec := rfl
@[simp] theorem State.tick_actions (s : State) : s.tick.actions = s.actions := rfl
@[simp] theorem State.tick_freeIndex (s : State) : s.tick.freeIndex = s.freeIndex + 1 := rfl

@[simp] theorem State.driveSp_sp (b : Byte) (s : State) : (s.driveSp b).sp = .settling b := rfl
@[simp] theorem State.driveSp_enc (b : Byte) (s : State) : (s.driveSp b).enc = s.enc := rfl
@[simp] theorem State.driveSp_dec (b : Byte) (s : State) : (s.driveSp b).dec = s.dec := rfl
@[simp] theorem State.driveSp_actions (b : Byte) (s : State) : (s.driveSp b).actions = s.actions := rfl

@[simp] theorem State.driveEnc_sp (c : CodeWord) (s : State) : (s.driveEnc c).sp = s.sp := rfl
@[simp] theorem State.driveEnc_enc (c : CodeWord) (s : State) : (s.driveEnc c).enc = .settling c := rfl
@[simp] theorem State.driveEnc_dec (c : CodeWord) (s : State) : (s.driveEnc c).dec = s.dec := rfl
@[simp] theorem State.driveEnc_actions (c : CodeWord) (s : State) : (s.driveEnc c).actions = s.actions := rfl

@[simp] theorem State.driveDec_sp (p : PackedWord) (s : State) : (s.driveDec p).sp = s.sp := rfl
@[simp] theorem State.driveDec_enc (p : PackedWord) (s : State) : (s.driveDec p).enc = s.enc := rfl
@[simp] theorem State.driveDec_dec (p : PackedWord) (s : State) : (s.driveDec p).dec = .settling p := rfl
@[simp] theorem State.driveDec_actions (p : PackedWord) (s : State) : (s.driveDec p).actions = s.actions := rfl

@[simp] theorem State.evalSp_sp (b : Byte) (o : SpOut) (s : State) : (s.evalSp b o).sp = .settled b o := rfl
@[simp] theorem State.evalSp_enc (b : Byte) (o : SpOut) (s : State) : (s.evalSp b o).enc = s.enc := rfl
@[simp] theorem State.evalSp_dec (b : Byte) (o : SpOut) (s : State) : (s.evalSp b o).dec = s.dec := rfl
@[simp] theorem State.evalSp_actions (b : Byte) (o : SpOut) (s : State) :
    (s.evalSp b o).actions = s.actions := rfl
@[simp] theorem State.evalSp_freeIndex (b : Byte) (o : SpOut) (s : State) :
    (s.evalSp b o).freeIndex = s.freeIndex + 2 := rfl

@[simp] theorem State.evalEnc_sp (c : CodeWord) (o : EncOut) (s : State) : (s.evalEnc c o).sp = s.sp := rfl
@[simp] theorem State.evalEnc_enc (c : CodeWord) (o : EncOut) (s : State) :
    (s.evalEnc c o).enc = .settled c o := rfl
@[simp] theorem State.evalEnc_dec (c : CodeWord) (o : EncOut) (s : State) : (s.evalEnc c o).dec = s.dec := rfl
@[simp] theorem State.evalEnc_actions (c : CodeWord) (o : EncOut) (s : State) :
    (s.evalEnc c o).actions = s.actions := rfl
@[simp] theorem State.evalEnc_freeIndex (c : CodeWord) (o : EncOut) (s : State) :
    (s.evalEnc c o).freeIndex = s.freeIndex + 2 := rfl

@[simp] theorem State.evalDec_sp (p : PackedWord) (o : DecOut) (s : State) : (s.evalDec p o).sp = s.sp := rfl
@[simp] theorem State.evalDec_enc (p : PackedWord) (o : DecOut) (s : State) : (s.evalDec p o).enc = s.enc := rfl
@[simp] theorem State.evalDec_dec (p : PackedWord) (o : DecOut) (s : State) :
    (s.evalDec p o).dec = .settled p o := rfl
@[simp] theorem State.evalDec_actions (p : PackedWord) (o : DecOut) (s : State) :
    (s.evalDec p o).actions = s.actions := rfl
@[simp] theorem State.evalDec_freeIndex (p : PackedWord) (o : DecOut) (s : State) :
    (s.evalDec p o).freeIndex = s.freeIndex + 2 := rfl

@[simp] theorem State.reset_sp : State.reset.sp = .undriven := rfl
@[simp] theorem State.reset_enc : State.reset.enc = .undriven := rfl
@[simp] theorem State.reset_dec : State.reset.dec = .undriven := rfl
@[simp] theorem State.reset_actions : State.reset.actions = [] := rfl
@[simp] theorem State.reset_freeIndex : State.reset.freeIndex = 0 := rfl

end Sys2Proof.Machine
end

