-- ==== Sys2Proof/Laws/Ops.lean ====
section
/-!
SUPPORT. What the port operations do, said once each: the accessors on an evaluated channel, and the
conditions of a channel.
-/

namespace Sys2Proof.Machine

@[simp] theorem Phase.input_undriven {α β : Type} : (Phase.undriven : Phase α β).input = none := rfl
@[simp] theorem Phase.input_settling {α β : Type} (v : α) : (Phase.settling v : Phase α β).input = some v := rfl
@[simp] theorem Phase.input_settled {α β : Type} (v : α) (o : β) : (Phase.settled v o).input = some v := rfl
@[simp] theorem Phase.outputs_undriven {α β : Type} : (Phase.undriven : Phase α β).outputs = none := rfl
@[simp] theorem Phase.outputs_settling {α β : Type} (v : α) :
    (Phase.settling v : Phase α β).outputs = none := rfl
@[simp] theorem Phase.outputs_settled {α β : Type} (v : α) (o : β) : (Phase.settled v o).outputs = some o := rfl

/-! ## Sampling a settled channel -/

theorem State.spSize_of_settled {s : State} {b : Byte} {o : SpOut} (h : s.sp = .settled b o) :
    s.spSize = o.size := by simp [State.spSize, h]
theorem State.spErr_of_settled {s : State} {b : Byte} {o : SpOut} (h : s.sp = .settled b o) :
    s.spErr = o.err := by simp [State.spErr, h]
theorem State.encPacked_of_settled {s : State} {c : CodeWord} {o : EncOut} (h : s.enc = .settled c o) :
    s.encPacked = o.packed := by simp [State.encPacked, h]
theorem State.encLen_of_settled {s : State} {c : CodeWord} {o : EncOut} (h : s.enc = .settled c o) :
    s.encLen = o.len := by simp [State.encLen, h]
theorem State.encErr_of_settled {s : State} {c : CodeWord} {o : EncOut} (h : s.enc = .settled c o) :
    s.encErr = o.err := by simp [State.encErr, h]
theorem State.decCp_of_settled {s : State} {p : PackedWord} {o : DecOut} (h : s.dec = .settled p o) :
    s.decCp = o.cp := by simp [State.decCp, h]
theorem State.decErr_of_settled {s : State} {p : PackedWord} {o : DecOut} (h : s.dec = .settled p o) :
    s.decErr = o.err := by simp [State.decErr, h]

@[simp] theorem State.evalSp_spLead (b : Byte) (o : SpOut) (s : State) : (s.evalSp b o).spLead = some b := rfl
@[simp] theorem State.evalSp_spSize (b : Byte) (o : SpOut) (s : State) : (s.evalSp b o).spSize = o.size := rfl
@[simp] theorem State.evalSp_spErr (b : Byte) (o : SpOut) (s : State) : (s.evalSp b o).spErr = o.err := rfl
@[simp] theorem State.evalEnc_encCp (c : CodeWord) (o : EncOut) (s : State) :
    (s.evalEnc c o).encCp = some c := rfl
@[simp] theorem State.evalEnc_encPacked (c : CodeWord) (o : EncOut) (s : State) :
    (s.evalEnc c o).encPacked = o.packed := rfl
@[simp] theorem State.evalEnc_encLen (c : CodeWord) (o : EncOut) (s : State) :
    (s.evalEnc c o).encLen = o.len := rfl
@[simp] theorem State.evalEnc_encErr (c : CodeWord) (o : EncOut) (s : State) :
    (s.evalEnc c o).encErr = o.err := rfl
@[simp] theorem State.evalDec_decPacked (p : PackedWord) (o : DecOut) (s : State) :
    (s.evalDec p o).decPacked = some p := rfl
@[simp] theorem State.evalDec_decCp (p : PackedWord) (o : DecOut) (s : State) :
    (s.evalDec p o).decCp = o.cp := rfl
@[simp] theorem State.evalDec_decErr (p : PackedWord) (o : DecOut) (s : State) :
    (s.evalDec p o).decErr = o.err := rfl

/-! ## What settling can do -/

/-- Settling an evaluated channel is the only thing `settleSp` does to a port. -/
theorem State.settleSp_sp (o : SpOut) (s : State) :
    (s.settleSp o).sp = match s.sp with
      | .settling b => .settled b o
      | .undriven => .undriven
      | .settled b o' => .settled b o' := by
  unfold State.settleSp; split <;> simp_all

theorem State.settleEnc_enc (o : EncOut) (s : State) :
    (s.settleEnc o).enc = match s.enc with
      | .settling c => .settled c o
      | .undriven => .undriven
      | .settled c o' => .settled c o' := by
  unfold State.settleEnc; split <;> simp_all

theorem State.settleDec_dec (o : DecOut) (s : State) :
    (s.settleDec o).dec = match s.dec with
      | .settling p => .settled p o
      | .undriven => .undriven
      | .settled p o' => .settled p o' := by
  unfold State.settleDec; split <;> simp_all

/-! ## Sizes and errors -/

@[simp] theorem sizePort_zero : sizePort 0 = 0 := rfl
@[simp] theorem errOfSize_zero : errOfSize 0 = 1 := rfl

/-- A size output shows the error exactly when it is 0. -/
theorem errOfSize_eq_one_iff (n : SizeWord) : errOfSize n = 1 ↔ n = 0 := by
  unfold errOfSize; split <;> simp_all

@[simp] theorem errorOf_one (ch : Channel) : errorOf ch 1 = some (errorKindOf ch) := rfl
@[simp] theorem errorOf_zero (ch : Channel) : errorOf ch 0 = none := rfl

end Sys2Proof.Machine
end

