-- ==== Sys2Proof/Laws/Exec.lean ====
section
/-!
SUPPORT. What an instruction and a step can do, said once: the inversion of exec and of step.
-/

namespace Sys2Proof.Machine

/-- A next state of exec is one evaluation of the instruction's channel. -/
theorem exec_next_cases {i : Instr} {s t : State} (h : exec i s = .next t) :
    (i.channel = some .sp ∧ ∃ b o, t = s.evalSp b o) ∨
    (i.channel = some .enc ∧ ∃ c o, t = s.evalEnc c o) ∨
    (i.channel = some .dec ∧ ∃ p o, t = s.evalDec p o) := by
  cases i with
  | reserved => cases h
  | size lead => cases h; exact .inl ⟨rfl, _, _, rfl⟩
  | sp4 x => cases h; exact .inl ⟨rfl, _, _, rfl⟩
  | sp3 x => cases h; exact .inl ⟨rfl, _, _, rfl⟩
  | sp2 x => cases h; exact .inl ⟨rfl, _, _, rfl⟩
  | sp1 x => cases h; exact .inl ⟨rfl, _, _, rfl⟩
  | spInvCont x => cases h; exact .inl ⟨rfl, _, _, rfl⟩
  | spInvMalformed x => cases h; exact .inl ⟨rfl, _, _, rfl⟩
  | encode c => cases h; exact .inr (.inl ⟨rfl, _, _, rfl⟩)
  | enc1 c => cases h; exact .inr (.inl ⟨rfl, _, _, rfl⟩)
  | enc2 c => cases h; exact .inr (.inl ⟨rfl, _, _, rfl⟩)
  | enc3 c => cases h; exact .inr (.inl ⟨rfl, _, _, rfl⟩)
  | enc4Low c => cases h; exact .inr (.inl ⟨rfl, _, _, rfl⟩)
  | enc4High c => cases h; exact .inr (.inl ⟨rfl, _, _, rfl⟩)
  | encFail c => cases h; exact .inr (.inl ⟨rfl, _, _, rfl⟩)
  | decode p => cases h; exact .inr (.inr ⟨rfl, _, _, rfl⟩)
  | dec4 l a b c => cases h; exact .inr (.inr ⟨rfl, _, _, rfl⟩)
  | dec3 l a b c => cases h; exact .inr (.inr ⟨rfl, _, _, rfl⟩)
  | dec2 l a b => cases h; exact .inr (.inr ⟨rfl, _, _, rfl⟩)
  | dec1 l a => cases h; exact .inr (.inr ⟨rfl, _, _, rfl⟩)
  | decInv p => cases h; exact .inr (.inr ⟨rfl, _, _, rfl⟩)

/-- What a step that goes on was: idle, one decoded instruction, or one of the host's other two actions. -/
theorem step_next_cases {s t : State} (h : step s = .next t) :
    (s.actions = [] ∧ t = s.tick) ∨
    (∃ r rest i, s.actions = .issue r :: rest ∧ decodeRequest r = .ok i ∧
      exec i { s with actions := rest } = .next t) ∨
    (∃ ch rest, s.actions = .float ch :: rest ∧ t = State.float ch { s with actions := rest }) ∨
    (∃ lead cp packed rest, s.actions = .together lead cp packed :: rest ∧
      execTogether lead cp packed { s with actions := rest } = .next t) := by
  unfold step at h
  split at h
  · cases h; exact .inl ⟨‹_›, rfl⟩
  · rename_i r rest hs
    unfold stepRequest at h
    split at h
    · exact .inr (.inl ⟨r, rest, _, hs, ‹_›, h⟩)
    · cases h
  · rename_i ch rest hs
    cases h; exact .inr (.inr (.inl ⟨ch, rest, hs, rfl⟩))
  · rename_i lead cp packed rest hs
    exact .inr (.inr (.inr ⟨lead, cp, packed, rest, hs, h⟩))

/-- A word of the opcode table is the next thing a step runs. -/
theorem step_withFetchWord (s : State) (nbits w : Nat) :
    step (s.withFetchWord nbits w) = stepRequest (tableRequest nbits w) s := rfl

end Sys2Proof.Machine
end

