-- ==== Sys2Proof/Laws/PerInstr.lean ====
section
/-!
SUPPORT. Facts made for every constructor of Instr, one lemma each. Family Fits: the request an instruction
is encoded to never overflows the port it is for, so the decoder never refuses it for its width.
-/

/-- The operand of a request fits the port it is for. -/
def Sys2Proof.Laws.Fits.fits : Sys2Proof.Request → Prop
  | .transact 0 n => n < 2 ^ 8
  | .transact 1 n => n < 2 ^ 64
  | .transact 2 n => n < 2 ^ 32
  | .transact 3 _ => True
  | .drive .sp n => n < 2 ^ 8
  | .drive .enc n => n < 2 ^ 64
  | .drive .dec n => n < 2 ^ 32

/-- The encoding of an instruction fits its port. -/
def Sys2Proof.Laws.Fits.Statement (i : Sys2Proof.Instr) : Prop :=
  Sys2Proof.Laws.Fits.fits (Sys2Proof.encodeRequest i)

namespace Sys2Proof.Laws.Fits

theorem size (b : Byte) : Statement (.size b) := b.isLt
theorem encode (c : CodeWord) : Statement (.encode c) := c.isLt
theorem decode (p : PackedWord) : Statement (.decode p) := p.isLt
theorem reserved : Statement .reserved := trivial
theorem sp4 (x : BitVec 3) : Statement (.sp4 x) := (sp4Word x).isLt
theorem sp3 (x : BitVec 4) : Statement (.sp3 x) := (sp3Word x).isLt
theorem sp2 (x : BitVec 5) : Statement (.sp2 x) := (sp2Word x).isLt
theorem sp1 (x : BitVec 7) : Statement (.sp1 x) := (sp1Word x).isLt
theorem spInvCont (x : BitVec 6) : Statement (.spInvCont x) := (spInvContWord x).isLt
theorem spInvMalformed (x : BitVec 3) : Statement (.spInvMalformed x) := (spInvMalformedWord x).isLt
theorem enc1 (c : BitVec 7) : Statement (.enc1 c) := (enc1Word c).isLt
theorem enc2 (c : BitVec 11) : Statement (.enc2 c) := (enc2Word c).isLt
theorem enc3 (c : BitVec 16) : Statement (.enc3 c) := (enc3Word c).isLt
theorem enc4Low (c : BitVec 20) : Statement (.enc4Low c) := (enc4LowWord c).isLt
theorem enc4High (c : BitVec 16) : Statement (.enc4High c) := (enc4HighWord c).isLt
theorem encFail (c : CodeWord) : Statement (.encFail c) := c.isLt
theorem dec4 (l : BitVec 3) (a b c : Byte) : Statement (.dec4 l a b c) := (dec4Word l a b c).isLt
theorem dec3 (h : BitVec 8) (l : BitVec 4) (a b : Byte) : Statement (.dec3 h l a b) := (dec3Word h l a b).isLt
theorem dec2 (h : BitVec 16) (l : BitVec 5) (a : Byte) : Statement (.dec2 h l a) := (dec2Word h l a).isLt
theorem dec1 (h : BitVec 24) (x : BitVec 7) : Statement (.dec1 h x) := (dec1Word h x).isLt
theorem decInv (p : PackedWord) : Statement (.decInv p) := p.isLt

end Sys2Proof.Laws.Fits
end

