-- ==== Sys2Proof/Laws/Safety.lean ====
section
/-!
SUPPORT. Which ports are consistent and quiet, and the frame of each evaluation.
-/

namespace Sys2Proof.Machine

@[simp] theorem Phase.consistent_undriven {α β : Type} (f : α → β) :
    (Phase.undriven : Phase α β).Consistent f := by simp [Phase.Consistent]

@[simp] theorem Phase.consistent_settling {α β : Type} (f : α → β) (v : α) :
    (Phase.settling v).Consistent f := by simp [Phase.Consistent]

@[simp] theorem Phase.consistent_settled_iff {α β : Type} (f : α → β) (v : α) (o : β) :
    (Phase.settled v o).Consistent f ↔ o = f v := by simp [Phase.Consistent]

@[simp] theorem Phase.quiet_undriven {α β : Type} : (Phase.undriven : Phase α β).quiet = true := rfl
@[simp] theorem Phase.quiet_settling {α β : Type} (v : α) : (Phase.settling v : Phase α β).quiet = false := rfl
@[simp] theorem Phase.quiet_settled {α β : Type} (v : α) (o : β) : (Phase.settled v o).quiet = true := rfl

@[simp] theorem State.frame_evalSp (s : State) (b : Byte) (o : SpOut) : s.Frame .sp (s.evalSp b o) := by
  simp [State.Frame]
@[simp] theorem State.frame_evalEnc (s : State) (c : CodeWord) (o : EncOut) : s.Frame .enc (s.evalEnc c o) := by
  simp [State.Frame]
@[simp] theorem State.frame_evalDec (s : State) (p : PackedWord) (o : DecOut) : s.Frame .dec (s.evalDec p o) := by
  simp [State.Frame]

end Sys2Proof.Machine
end

