-- ==== Sys2Proof/Tests/Slice0.lean ====
section
/-!
SUPPORT. The model's own tests: ill-formed terms, words written out from the encodings of spec/30_encoding.md,
results from spec/95_test_vectors.md, and a witness for the hypotheses of every statement that has some.
-/

namespace Sys2Proof.Tests

open Sys2Proof Sys2Proof.Machine

/-- What the host samples after an outcome. -/
def sampled (ch : Channel) : Host.Outcome State Fault Refusal → Option Response
  | .next t => some (t.sample ch)
  | .fault _ => none
  | .refused _ => none

/-- A state with one pending action. -/
def pending (a : HostAction) : State := { State.reset with actions := [a] }

/-! ## WellFormed: each check refuses an ill-formed term (R64, R65) -/

theorem test_wf_enc2_refuses : Instr.wellFormed .ignore (.enc2 0x7F) = false := by decide
theorem test_wf_enc3_refuses : Instr.wellFormed .ignore (.enc3 0x7FF) = false := by decide
theorem test_wf_enc4Low_refuses : Instr.wellFormed .ignore (.enc4Low 0xFFFF) = false := by decide
theorem test_wf_encFail_refuses : Instr.wellFormed .ignore (.encFail 0x10FFFF) = false := by decide
/-- The word is one of DEC.4. -/
theorem test_wf_dec3_refuses_dec4 : Instr.wellFormed .ignore (.dec3 0xF0 0 0 0) = false := by decide
theorem test_wf_dec3_refuses_high : Instr.wellFormed .requireZero (.dec3 0x01 0 0 0) = false := by decide
theorem test_wf_dec2_refuses_dec4 : Instr.wellFormed .ignore (.dec2 0xF000 0 0) = false := by decide
theorem test_wf_dec2_refuses_dec3 : Instr.wellFormed .ignore (.dec2 0x00E0 0 0) = false := by decide
theorem test_wf_dec2_refuses_high : Instr.wellFormed .requireZero (.dec2 0x0001 0 0) = false := by decide
theorem test_wf_dec1_refuses_dec4 : Instr.wellFormed .ignore (.dec1 0xF00000 0) = false := by decide
theorem test_wf_dec1_refuses_dec3 : Instr.wellFormed .ignore (.dec1 0x00E000 0) = false := by decide
theorem test_wf_dec1_refuses_dec2 : Instr.wellFormed .ignore (.dec1 0x0000C0 0) = false := by decide
theorem test_wf_dec1_refuses_high : Instr.wellFormed .requireZero (.dec1 0x000001 0) = false := by decide
theorem test_wf_decInv_refuses_dec4 : Instr.wellFormed .ignore (.decInv 0xF0808080) = false := by decide
theorem test_wf_decInv_refuses_dec3 : Instr.wellFormed .ignore (.decInv 0x00E08080) = false := by decide
theorem test_wf_decInv_refuses_dec2 : Instr.wellFormed .ignore (.decInv 0x0000C080) = false := by decide
theorem test_wf_decInv_refuses_dec1 : Instr.wellFormed .ignore (.decInv 0x00000000) = false := by decide
/-- The same word is DEC.1 under IGNORE and DEC.INV under REQUIRE_ZERO (spec/95_test_vectors.md 2.3). -/
theorem test_wf_decInv_by_setting : Instr.wellFormed .ignore (.decInv 0x12345678) = false ∧
    Instr.wellFormed .requireZero (.decInv 0x12345678) = true := by decide

/-! ## Decoding: a word of every row, written out from R63, R64, R65 and R70 -/

theorem test_decode_size : decodeRequest (.transact 0b00 0xE2) = .ok (.size 0xE2) := by decide
theorem test_decode_encode : decodeRequest (.transact 0b01 0x20AC) = .ok (.encode 0x20AC) := by decide
theorem test_decode_decode : decodeRequest (.transact 0b10 0xE282AC) = .ok (.decode 0xE282AC) := by decide
theorem test_decode_reserved : decodeRequest (.transact 0b11 5) = .ok .reserved := by decide
theorem test_decode_sp4 : decodeRequest (.drive .sp 0b11110100) = .ok (.sp4 0b100) := by decide
theorem test_decode_sp3 : decodeRequest (.drive .sp 0b11101101) = .ok (.sp3 0b1101) := by decide
theorem test_decode_sp2 : decodeRequest (.drive .sp 0b11000010) = .ok (.sp2 0b00010) := by decide
theorem test_decode_sp1 : decodeRequest (.drive .sp 0b00100100) = .ok (.sp1 0b0100100) := by decide
theorem test_decode_spInvCont : decodeRequest (.drive .sp 0b10111111) = .ok (.spInvCont 0b111111) := by decide
theorem test_decode_spInvMalformed :
    decodeRequest (.drive .sp 0b11111011) = .ok (.spInvMalformed 0b011) := by decide
theorem test_decode_enc1 : decodeRequest (.drive .enc 0x7F) = .ok (.enc1 0x7F) := by decide
theorem test_decode_enc2 : decodeRequest (.drive .enc 0x80) = .ok (.enc2 0x80) := by decide
theorem test_decode_enc3 : decodeRequest (.drive .enc 0x800) = .ok (.enc3 0x800) := by decide
theorem test_decode_enc4Low : decodeRequest (.drive .enc 0xFFFFF) = .ok (.enc4Low 0xFFFFF) := by decide
theorem test_decode_enc4High : decodeRequest (.drive .enc 0x100001) = .ok (.enc4High 0x0001) := by decide
theorem test_decode_encFail : decodeRequest (.drive .enc 0x110000) = .ok (.encFail 0x110000) := by decide
theorem test_decode_dec4 :
    decodeRequest (.drive .dec 0b11110100100011111011111010111101) = .ok (.dec4 0b100 0x8F 0xBE 0xBD) := by
  decide
theorem test_decode_dec3 :
    decodeRequest (.drive .dec 0b11000000111000101000001010101100) = .ok (.dec3 0xC0 0b0010 0x82 0xAC) := by
  decide
theorem test_decode_dec2 :
    decodeRequest (.drive .dec 0b00010010001101001101000010011000) = .ok (.dec2 0x1234 0b10000 0x98) := by
  decide
theorem test_decode_dec1 :
    decodeRequest (.drive .dec 0b00010010001101000101011001111000) = .ok (.dec1 0x123456 0b1111000) := by
  decide
theorem test_decode_decInv : decodeRequest (.drive .dec 0xF8808080) = .ok (.decInv 0xF8808080) := by decide
theorem test_decode_too_wide :
    decodeRequest (.transact 0 0x100) = .error (.operandTooWide .sp) := by decide

/-- The rows of the opcode table, by the table's own numbering. -/
theorem test_table_words :
    decodeTableWord 8 0 = some (.size 0) ∧ decodeTableWord 8 1 = some (.encode 0) ∧
    decodeTableWord 8 2 = some (.decode 0) ∧ decodeTableWord 8 3 = some .reserved ∧
    decodeTableWord 8 0xF0 = some (.sp4 0) ∧ decodeTableWord 8 0x80 = some (.spInvCont 0) ∧
    decodeTableWord 16 0xC000 = some (.dec2 0 0 0) ∧ decodeTableWord 24 0xE00000 = some (.dec3 0 0 0 0) ∧
    decodeTableWord 32 0xF0000000 = some (.dec4 0 0 0 0) ∧ decodeTableWord 64 0x80 = some (.enc2 0x80) := by
  decide

/-- A word of the table is the first thing to run after reset. -/
theorem test_table_word_runs : sampled .sp (step (State.reset.withFetchWord 8 0xF0)) = some (.size 4 0) := by
  decide

theorem test_spelling : Operation.ofSpelling "utf8Encode" = some .encode ∧ Operation.ofSpelling "utf8" = none := by
  decide

/-! ## Results: the source's fixtures and the derived vectors (spec/95_test_vectors.md) -/

/-- Section 1.2 and 1.3. -/
theorem test_size_fixture : sampled .sp (exec (.size 0xE2) .reset) = some (.size 3 0) := by decide
theorem test_size_invalid : sampled .sp (exec (.size 0xFF) .reset) = some (.size 0 1) := by decide
theorem test_sp4 : sampled .sp (exec (.sp4 0b111) .reset) = some (.size 4 0) := by decide
theorem test_sp3 : sampled .sp (exec (.sp3 0xD) .reset) = some (.size 3 0) := by decide
theorem test_sp2 : sampled .sp (exec (.sp2 0) .reset) = some (.size 2 0) := by decide
theorem test_sp1 : sampled .sp (exec (.sp1 0) .reset) = some (.size 1 0) := by decide
theorem test_spInvCont : sampled .sp (exec (.spInvCont 0) .reset) = some (.size 0 1) := by decide
theorem test_spInvMalformed : sampled .sp (exec (.spInvMalformed 7) .reset) = some (.size 0 1) := by decide

/-- Section 1.1 and 1.3. -/
theorem test_encode_fixture :
    sampled .enc (exec (.encode 0x10348) .reset) = some (.encode 0xF0908D88 4 0) := by decide
theorem test_encode_not_truncated :
    sampled .enc (exec (.encode 0x100000024) .reset) = some (.encode 0 0 1) := by decide
theorem test_enc1 : sampled .enc (exec (.enc1 0) .reset) = some (.encode 0 1 0) := by decide
theorem test_enc2 : sampled .enc (exec (.enc2 0x7FF) .reset) = some (.encode 0x0000DFBF 2 0) := by decide
theorem test_enc3 : sampled .enc (exec (.enc3 0xD800) .reset) = some (.encode 0x00EDA080 3 0) := by decide
theorem test_enc4Low : sampled .enc (exec (.enc4Low 0xFFFFF) .reset) = some (.encode 0xF3BFBFBF 4 0) := by
  decide
theorem test_enc4High : sampled .enc (exec (.enc4High 0xFFFF) .reset) = some (.encode 0xF48FBFBF 4 0) := by
  decide
theorem test_encFail : sampled .enc (exec (.encFail 0xFFFFFFFFFFFFFFFF) .reset) = some (.encode 0 0 1) := by
  decide

/-- Section 1.1 and 2.3. -/
theorem test_decode_value : sampled .dec (exec (.decode 0xF0908D88) .reset) = some (.decode 0x10348 0) := by
  decide
theorem test_decode_unclean : sampled .dec (exec (.decode 0xC0E282AC) .reset) = some (.decode 0x20AC 0) := by
  decide
theorem test_dec4 :
    sampled .dec (exec (.dec4 0 0xE2 0xC2 0x24) .reset) = some (.decode 0x220A4 0) := by decide
theorem test_dec3 :
    sampled .dec (exec (.dec3 0 0 0xC2 0xA3) .reset) = some (.decode 0xA3 0) := by decide
theorem test_dec2 : sampled .dec (exec (.dec2 0 0b00010 0xFF) .reset) = some (.decode 0xBF 0) := by decide
theorem test_dec1 : sampled .dec (exec (.dec1 0x123456 0x78) .reset) = some (.decode 0x78 0) := by decide
theorem test_decInv : sampled .dec (exec (.decInv 0x0000E282) .reset) = some (.decode 0 1) := by decide
/-- Operands of DEC.3 whose word is one of DEC.4: the channel decodes the word (R69, log entry 8). -/
theorem test_illformed_dec3 : exec (.dec3 0xF0 0 0 0) .reset = exec (.decode 0xF0E00000) .reset := by rfl
/-- The REQUIRE_ZERO column of section 2.3. -/
theorem test_require_zero :
    decoder .requireZero 0xFFE282AC = ⟨0, 1⟩ ∧ decoder .requireZero 0x00000100 = ⟨0, 1⟩ ∧
    decoder .requireZero 0x00E0C2A3 = ⟨0xA3, 0⟩ := by decide

/-- RESERVED is refused (R70). -/
theorem test_reserved : step (pending (.issue (.transact 3 0))) = .refused .reservedIdentifier := by rfl
/-- Section 2.5: all three channels at once. -/
theorem test_together :
    let o := step (pending (.together (some 0xD0) (some 0x418) (some 0x0000D098)))
    sampled .sp o = some (.size 2 0) ∧ sampled .enc o = some (.encode 0x0000D098 2 0) ∧
      sampled .dec o = some (.decode 0x418 0) := by decide
theorem test_packBytes : packBytes [0xE2, 0x82, 0xAC] = 0x00E282AC ∧ leadByteOf 0x00E282AC 3 = 0xE2 := by decide

/-! ## Witnesses: states and operands that meet the hypotheses of the statements -/

theorem witness_IdentifiersNameOperations :
    (pending (.issue (.transact 3 9))).actions = .issue (.transact 3 9) :: [] := rfl

theorem witness_OperandWiderThanPortIsRefused :
    2 ^ 8 ≤ 256 ∧ (pending (.issue (.transact 0 256))).actions = .issue (.transact 0 256) :: [] ∧
    (pending (.issue (.drive .sp 256))).actions = .issue (.drive .sp 256) :: [] ∧
    2 ^ 64 ≤ 18446744073709551616 ∧ (pending (.issue (.transact 1 (2 ^ 64)))).actions = [.issue (.transact 1 (2 ^ 64))] ∧
    2 ^ 32 ≤ 4294967296 ∧ (pending (.issue (.drive .dec (2 ^ 32)))).actions = [.issue (.drive .dec (2 ^ 32))] := by
  decide

/-- Both settings, at the boundary of each check. -/
theorem witness_DecodeOfEncodeIsIdentity :
    ([Instr.sp4 7, .enc2 0x80, .enc3 0x800, .enc4Low 0x10000, .enc4High 0, .encFail 0x110000, .dec4 7 0 0 0,
      .dec3 0 0 0 0, .dec2 0 0 0, .dec1 0 0, .decInv 0x80]).all
      (fun i => i.wellFormed .ignore && i.wellFormed .requireZero) = true ∧
    ([Instr.dec3 0xEF 0 0 0, .dec2 0x00DF 0 0, .dec1 0x0000BF 0]).all
      (fun i => i.wellFormed .ignore && !i.wellFormed .requireZero) = true := by decide

theorem witness_DecodedRequestEncodesBack :
    decodeRequestUnder .requireZero (.drive .dec 0xFFE282AC) = .ok (.decInv 0xFFE282AC) ∧
    decodeRequestUnder .ignore (.transact 2 0xFFFFFFFF) = .ok (.decode 0xFFFFFFFF) := by decide

theorem witness_SizeLadderOrderNeverMatters : spRows.reverse.Perm spRows := spRows.reverse_perm

theorem witness_SizeZeroExactlyOnInvalid :
    exec (.size 0x80) .reset = .next (State.reset.evalSp 0x80 (sizeProbe 0x80)) := rfl

/-- Each clause at both ends of its range. -/
theorem witness_EncodeByMagnitude :
    ([0x0, 0x7F] : List CodeWord).all (fun c => sampled .enc (exec (.encode c) .reset) =
      some (.encode (c.setWidth 32) 1 0)) = true ∧
    sampled .enc (exec (.encode 0x80) .reset) = some (.encode 0xC280 2 0) ∧
    sampled .enc (exec (.encode 0x7FF) .reset) = some (.encode 0xDFBF 2 0) ∧
    sampled .enc (exec (.encode 0x800) .reset) = some (.encode 0xE0A080 3 0) ∧
    sampled .enc (exec (.encode 0xFFFF) .reset) = some (.encode 0xEFBFBF 3 0) ∧
    sampled .enc (exec (.encode 0x10000) .reset) = some (.encode 0xF0908080 4 0) ∧
    sampled .enc (exec (.encode 0x10FFFF) .reset) = some (.encode 0xF48FBFBF 4 0) ∧
    sampled .enc (exec (.encode 0x110000) .reset) = some (.encode 0 0 1) := by decide

theorem witness_EncFormsPackTheirBytes :
    0x80 ≤ (0x80#11).toNat ∧ 0x800 ≤ (0x800#16).toNat ∧ 0x10000 ≤ (0x10000#20).toNat ∧
      0x10FFFF < (0x110000#64).toNat := by decide

/-- For the statements about code points up to 0x10FFFF and about the lengths 1 to 4. -/
theorem witness_encodable :
    (0x10FFFF#64).toNat ≤ 0x10FFFF ∧ (encoder 0x7F).len = 1 ∧ (encoder 0x80).len = 2 ∧
      (encoder 0x800).len = 3 ∧ (encoder 0x10FFFF).len = 4 ∧ (encoderBytes 0x10FFFF).length = 4 := by decide

theorem witness_EncoderRejectsOnlyAboveRange :
    0xD800 ≤ (0xD800#64).toNat ∧ (0xDFFF#64).toNat ≤ 0xDFFF := by decide

/-- Distinct code points, both encodable, at the ends of the range. -/
theorem witness_EncoderResultProperties :
    (0#64).toNat ≤ 0x10FFFF ∧ (encoder 0x10FFFF).packed = (encoder 0x10FFFF).packed := by decide

/-- One word for each clause, in order; the last is DEC.INV. -/
theorem witness_DecodeUsesTheIgnoreSetting :
    (0xF7BFBFBF / 2 ^ 27 = 0b11110) ∧
    (0xFFEFBFBF / 2 ^ 27 ≠ 0b11110 ∧ 0xFFEFBFBF / 2 ^ 20 % 16 = 0b1110) ∧
    (0x0000DFBF / 2 ^ 20 % 16 ≠ 0b1110 ∧ 0x0000DFBF / 2 ^ 13 % 8 = 0b110) ∧
    (0x12345678 / 2 ^ 13 % 8 ≠ 0b110 ∧ 0x12345678 / 2 ^ 7 % 2 = 0) ∧
    (0x000000FF / 2 ^ 13 % 8 ≠ 0b110 ∧ 0x000000FF / 2 ^ 7 % 2 = 1) := by decide

theorem witness_DecFormsAssembleTheirFields :
    Instr.wellFormed pDecHigh (.dec3 0xFF 0xF 0xFF 0xFF) = true ∧
    Instr.wellFormed pDecHigh (.dec2 0xFFFF 0x1F 0xFF) = true ∧
    Instr.wellFormed pDecHigh (.dec1 0xFFFFFF 0x7F) = true ∧
    Instr.wellFormed pDecHigh (.decInv 0xFFFFFFFF) = true := by decide

theorem witness_DecRowsDisjointOnlyUnderRequireZero :
    ∃ r ∈ decRows .requireZero, r.takes 0x00E0C2A3 = true ∧ (decRows .ignore).reverse.Perm (decRows .ignore) :=
  ⟨⟨.three, 0xFFF00000, 0x00E00000⟩, by simp [decRows], by decide, List.reverse_perm _⟩

theorem witness_ContinuationPrefixIsNeverRead :
    (0xA4#8).toNat % 64 = (0x24#8).toNat % 64 ∧ Instr.wellFormed .requireZero (.dec3 0 2 0x82 0xAC) = true ∧
      Instr.wellFormed .requireZero (.dec2 0 2 0x24) = true := by decide

theorem witness_OverlongAndSurrogateAreDecoded :
    (0x7FF#64).toNat < 2 ^ 11 ∧ (0xFFFF#64).toNat < 2 ^ 16 ∧ (0x1FFFFF#64).toNat < 2 ^ 21 := by decide

theorem witness_DecodeInvalidExactlyWhenNoFormMatches :
    (decoder .ignore 0x80).err = 1 ∧ (decoder .requireZero 0x100).err = 1 := by decide

/-- A clean word, an unclean word, and a word of no form. -/
theorem witness_SettingsAgreeExactlyOnCleanInputs :
    (decFormLength (selectDec .ignore 0x00EFBFBF) = some 3 ∧ clean 3 0x00EFBFBF = true) ∧
    (decFormLength (selectDec .ignore 0x01EFBFBF) = some 3 ∧ clean 3 0x01EFBFBF = false) ∧
    selectDec .ignore 0xFFFFFFFF = .invalid := by decide

theorem witness_DecodedValueRange :
    selectDec .ignore 0x00EFBFBF = .three ∧ selectDec .ignore 0xDFBF = .two ∧ selectDec .ignore 0x7F = .one ∧
    0x110000 ≤ (0x110000#64).toNat ∧ (0x1FFFFF#64).toNat ≤ 0x1FFFFF := by decide

/-- Accepted inputs inside and outside the Encoder's image. -/
theorem witness_EncodeUndoesDecodeExactlyOnImage :
    (decoder .ignore 0x00E282AC).err = 0 ∧ (decoder .requireZero 0x0000C0A4).err = 0 := by decide

theorem witness_ErrorKindsByCause :
    (∃ t, exec (.size 0x80) .reset = .next t ∧ t.error .sp = some .invalidLeadByte) ∧
    (∃ t, exec (.encode 0x110000) .reset = .next t ∧ t.error .enc = some .codePointOutOfRange) ∧
    ∃ t, exec (.decode 0x80) .reset = .next t ∧ t.error .dec = some .invalidLeadByte :=
  ⟨⟨_, rfl, by decide⟩, ⟨_, rfl, by decide⟩, ⟨_, rfl, by decide⟩⟩

theorem witness_StepRunsTheDecodedInstruction :
    (pending (.issue (.transact 1 0x24))).actions = .issue (.transact 1 0x24) :: [] ∧
      decodeRequest (.transact 1 0x24) = .ok (.encode 0x24) := by decide

theorem witness_StepsOfTheHostsOtherActions :
    State.reset.actions = [] ∧ (pending (.float .enc)).actions = .float .enc :: [] ∧
      (pending (.together (some 1) none none)).actions = .together (some 1) none none :: [] := by decide

/-- A state that meets the invariant with every input driven, and a step from it. -/
def launchedState : State :=
  { sp := .settled 0xD0 (sizeProbe 0xD0), enc := .settled 0x418 (encoder 0x418),
    dec := .settled 0xD098 (decoder pDecHigh 0xD098), actions := [.issue (.transact 0 0xFF)], freeIndex := 0 }

theorem launchedState_inv : launchedState.Inv :=
  ⟨⟨(Phase.consistent_settled_iff _ _ _).mpr rfl, (Phase.consistent_settled_iff _ _ _).mpr rfl,
    (Phase.consistent_settled_iff _ _ _).mpr rfl⟩, ⟨rfl, rfl, rfl⟩⟩

theorem witness_StepKeepsOutputsTheFunctionOfInputs :
    launchedState.Inv ∧ ∃ t, step launchedState = .next t :=
  ⟨launchedState_inv, _, rfl⟩

theorem witness_UnsetOutputBitsAreZero :
    launchedState.Inv ∧ launchedState.launched = true ∧ launchedState.encLen.toNat < 4 :=
  ⟨launchedState_inv, rfl, by decide⟩

theorem witness_ChannelsAreIsolated :
    (∃ t, exec (.enc2 0x80) launchedState = .next t) ∧ Instr.channel (.enc2 0x80) = some .enc := ⟨⟨_, rfl⟩, rfl⟩

theorem witness_OutputsDependOnTheInputAlone :
    (∃ t₁ t₂, exec (.decode 0x80) launchedState = .next t₁ ∧ exec (.decode 0x80) .reset = .next t₂) ∧
      Instr.channel (.decode 0x80) = some .dec := ⟨⟨_, _, rfl, rfl⟩, rfl⟩

theorem witness_EvaluationIsIdempotent :
    ∃ t u v, exec (.size 0x24) .reset = .next t ∧ exec (.encode 0x24) t = .next u ∧
      exec (.size 0x24) u = .next v ∧ Instr.channel (.size 0x24) = some .sp := ⟨_, _, _, rfl, rfl, rfl, rfl⟩

theorem witness_DifferentChannelsCommute :
    Instr.channel (.sp1 0) ≠ Instr.channel (.dec1 0 0) ∧
    ∃ a ab b ba, exec (.sp1 0) .reset = .next a ∧ exec (.dec1 0 0) a = .next ab ∧
      exec (.dec1 0 0) .reset = .next b ∧ exec (.sp1 0) b = .next ba := ⟨by decide, _, _, _, _, rfl, rfl, rfl, rfl⟩

theorem witness_ConcurrentEvaluationEqualsSequential :
    ∃ t, execTogether (some 0xD0) none (some 0x80) launchedState = .next t ∧ t.enc = launchedState.enc ∧
      t.sample .dec = .decode 0 1 := ⟨_, rfl, rfl, by decide⟩

/-- A fetch word changes nothing but the host's list. -/
theorem test_withFetchWord_step :
    step (State.reset.withFetchWord 24 0xE00000) = exec (.dec3 0 0 0 0) State.reset := rfl

end Sys2Proof.Tests
end

namespace Sys2Proof.Machine

/-! # State and invariant (spec/10_state.md)

Every instruction is one evaluation of its channel's function on a word that the instruction alone
fixes (R23, R69). From this follow the invariant and the independence of the outputs. -/

/-! ## Channel SP: the ladder by ranges, and the word of each form -/

/-- The tests of R100 on bit fields are the ranges of R63 on the byte. -/
theorem sizeProbe_eq_of_range (b : Byte) : sizeProbe b = spOutOfSize
    (if b.toNat < 0x80 then 1 else if b.toNat < 0xC0 then 0 else if b.toNat < 0xE0 then 2
      else if b.toNat < 0xF0 then 3 else if b.toNat < 0xF8 then 4 else 0) := by
  have hb : b.toNat < 2 ^ 8 := b.isLt
  simp only [sizeProbe, Bits.extractLsb_eq_iff, BitVec.toNat_ofNat]
  congr 1
  split_ifs <;> omega

theorem sp4Word_toNat (x : BitVec 3) : (sp4Word x).toNat = 0xF0 + x.toNat := Bits.toNat_append_add _ x
theorem sp3Word_toNat (x : BitVec 4) : (sp3Word x).toNat = 0xE0 + x.toNat := Bits.toNat_append_add _ x
theorem sp2Word_toNat (x : BitVec 5) : (sp2Word x).toNat = 0xC0 + x.toNat := Bits.toNat_append_add _ x
theorem sp1Word_toNat (x : BitVec 7) : (sp1Word x).toNat = x.toNat :=
  (Bits.toNat_append_add _ x).trans (Nat.zero_add _)
theorem spInvContWord_toNat (x : BitVec 6) : (spInvContWord x).toNat = 0x80 + x.toNat :=
  Bits.toNat_append_add _ x
theorem spInvMalformedWord_toNat (x : BitVec 3) : (spInvMalformedWord x).toNat = 0xF8 + x.toNat :=
  Bits.toNat_append_add _ x

theorem sizeProbe_sp4Word (x : BitVec 3) : sizeProbe (sp4Word x) = spOutOfSize 4 := by
  rw [sizeProbe_eq_of_range, sp4Word_toNat]
  congr 1
  split_ifs <;> omega

theorem sizeProbe_sp3Word (x : BitVec 4) : sizeProbe (sp3Word x) = spOutOfSize 3 := by
  rw [sizeProbe_eq_of_range, sp3Word_toNat]
  congr 1
  split_ifs <;> omega

theorem sizeProbe_sp2Word (x : BitVec 5) : sizeProbe (sp2Word x) = spOutOfSize 2 := by
  rw [sizeProbe_eq_of_range, sp2Word_toNat]
  congr 1
  split_ifs <;> omega

theorem sizeProbe_sp1Word (x : BitVec 7) : sizeProbe (sp1Word x) = spOutOfSize 1 := by
  rw [sizeProbe_eq_of_range, sp1Word_toNat]
  exact congrArg spOutOfSize (if_pos x.isLt)

theorem sizeProbe_spInvContWord (x : BitVec 6) : sizeProbe (spInvContWord x) = spOutOfSize 0 := by
  rw [sizeProbe_eq_of_range, spInvContWord_toNat]
  congr 1
  split_ifs <;> omega

theorem sizeProbe_spInvMalformedWord (x : BitVec 3) :
    sizeProbe (spInvMalformedWord x) = spOutOfSize 0 := by
  rw [sizeProbe_eq_of_range, spInvMalformedWord_toNat]
  congr 1
  split_ifs <;> omega

/-! ## Channel ENC: the ladder by ranges, and the word of each form -/

theorem encoder_one {c : CodeWord} (h : c.toNat ≤ 0x7F) : encoder c = encOutOf (encPacked1 c) 1 := by
  simp [encoder, BitVec.le_def, h]

theorem encoder_two {c : CodeWord} (hlo : 0x80 ≤ c.toNat) (hhi : c.toNat ≤ 0x7FF) :
    encoder c = encOutOf (encPacked2 c) 2 := by
  have h1 : ¬ c.toNat ≤ 0x7F := by omega
  simp [encoder, BitVec.le_def, h1, hhi]

theorem encoder_three {c : CodeWord} (hlo : 0x800 ≤ c.toNat) (hhi : c.toNat ≤ 0xFFFF) :
    encoder c = encOutOf (encPacked3 c) 3 := by
  have h1 : ¬ c.toNat ≤ 0x7F := by omega
  have h2 : ¬ c.toNat ≤ 0x7FF := by omega
  simp [encoder, BitVec.le_def, h1, h2, hhi]

theorem encoder_four {c : CodeWord} (hlo : 0x10000 ≤ c.toNat) (hhi : c.toNat ≤ 0x10FFFF) :
    encoder c = encOutOf (encPacked4 c) 4 := by
  have h1 : ¬ c.toNat ≤ 0x7F := by omega
  have h2 : ¬ c.toNat ≤ 0x7FF := by omega
  have h3 : ¬ c.toNat ≤ 0xFFFF := by omega
  simp [encoder, BitVec.le_def, h1, h2, h3, hhi]

theorem encoder_fail {c : CodeWord} (hlo : 0x10FFFF < c.toNat) : encoder c = encFailure := by
  have h1 : ¬ c.toNat ≤ 0x7F := by omega
  have h2 : ¬ c.toNat ≤ 0x7FF := by omega
  have h3 : ¬ c.toNat ≤ 0xFFFF := by omega
  have h4 : ¬ c.toNat ≤ 0x10FFFF := by omega
  simp [encoder, BitVec.le_def, h1, h2, h3, h4]

/-- The Encoder's outputs are those of one of its five forms. -/
theorem encoder_cases (c : CodeWord) :
    encoder c = encOutOf (encPacked1 c) 1 ∨ encoder c = encOutOf (encPacked2 c) 2 ∨
    encoder c = encOutOf (encPacked3 c) 3 ∨ encoder c = encOutOf (encPacked4 c) 4 ∨
    encoder c = encFailure := by
  unfold encoder
  split_ifs <;> simp

theorem enc1Word_toNat (c : BitVec 7) : (enc1Word c).toNat = c.toNat :=
  BitVec.toNat_setWidth_of_le (by decide)
theorem enc2Word_toNat (c : BitVec 11) : (enc2Word c).toNat = c.toNat :=
  BitVec.toNat_setWidth_of_le (by decide)
theorem enc3Word_toNat (c : BitVec 16) : (enc3Word c).toNat = c.toNat :=
  BitVec.toNat_setWidth_of_le (by decide)
theorem enc4LowWord_toNat (c : BitVec 20) : (enc4LowWord c).toNat = c.toNat :=
  BitVec.toNat_setWidth_of_le (by decide)
theorem enc4HighWord_toNat (c : BitVec 16) : (enc4HighWord c).toNat = 0x100000 + c.toNat :=
  Bits.toNat_append_add _ c

theorem encoder_enc1Word (c : BitVec 7) :
    encoder (enc1Word c) = encOutOf (encPacked1 (enc1Word c)) 1 :=
  encoder_one (by rw [enc1Word_toNat]; omega)

theorem encoder_enc2Word {c : BitVec 11} (hc : 0x80 ≤ c) :
    encoder (enc2Word c) = encOutOf (encPacked2 (enc2Word c)) 2 := by
  have hlo : 0x80 ≤ c.toNat := hc
  exact encoder_two (by rwa [enc2Word_toNat]) (by rw [enc2Word_toNat]; omega)

theorem encoder_enc3Word {c : BitVec 16} (hc : 0x800 ≤ c) :
    encoder (enc3Word c) = encOutOf (encPacked3 (enc3Word c)) 3 := by
  have hlo : 0x800 ≤ c.toNat := hc
  exact encoder_three (by rwa [enc3Word_toNat]) (by rw [enc3Word_toNat]; omega)

theorem encoder_enc4LowWord {c : BitVec 20} (hc : 0x10000 ≤ c) :
    encoder (enc4LowWord c) = encOutOf (encPacked4 (enc4LowWord c)) 4 := by
  have hlo : 0x10000 ≤ c.toNat := hc
  exact encoder_four (by rwa [enc4LowWord_toNat]) (by rw [enc4LowWord_toNat]; omega)

theorem encoder_enc4HighWord (c : BitVec 16) :
    encoder (enc4HighWord c) = encOutOf (encPacked4 (enc4HighWord c)) 4 :=
  encoder_four (by rw [enc4HighWord_toNat]; omega) (by rw [enc4HighWord_toNat]; omega)

/-! ## Channel DEC: the ladder by its tests -/

theorem decoder_four {h : DecHigh} {p : PackedWord} (h4 : decTest4 p = true) :
    decoder h p = decSuccess (decCp4 p) := if_pos h4

theorem decoder_three {h : DecHigh} {p : PackedWord} (h4 : decTest4 p = false)
    (h3 : decTest3 h p = true) : decoder h p = decSuccess (decCp3 p) := by
  simp [decoder, h4, h3]

theorem decoder_two {h : DecHigh} {p : PackedWord} (h4 : decTest4 p = false)
    (h3 : decTest3 h p = false) (h2 : decTest2 h p = true) :
    decoder h p = decSuccess (decCp2 p) := by
  simp [decoder, h4, h3, h2]

theorem decoder_one {h : DecHigh} {p : PackedWord} (h4 : decTest4 p = false)
    (h3 : decTest3 h p = false) (h2 : decTest2 h p = false) (h1 : decTest1 h p = true) :
    decoder h p = decSuccess (decCp1 p) := by
  simp [decoder, h4, h3, h2, h1]

theorem decoder_invalid {h : DecHigh} {p : PackedWord} (h4 : decTest4 p = false)
    (h3 : decTest3 h p = false) (h2 : decTest2 h p = false) (h1 : decTest1 h p = false) :
    decoder h p = decFailure := by
  simp [decoder, h4, h3, h2, h1]

/-! The guarded meanings of DEC.3 to DEC.INV: the form's value where its own tests hold, and the function
where they fail, so the function in every case (R69). -/

theorem ite_three_eq_decoder (h : DecHigh) (p : PackedWord) :
    (if !decTest4 p && decTest3 h p then decSuccess (decCp3 p) else decoder h p) = decoder h p := by
  refine ite_eq_right_iff.mpr fun ht => ?_
  simp only [Bool.and_eq_true, Bool.not_eq_true'] at ht
  obtain ⟨h4, h3⟩ := ht
  exact (decoder_three h4 h3).symm

theorem ite_two_eq_decoder (h : DecHigh) (p : PackedWord) :
    (if !decTest4 p && !decTest3 h p && decTest2 h p then decSuccess (decCp2 p)
     else decoder h p) = decoder h p := by
  refine ite_eq_right_iff.mpr fun ht => ?_
  simp only [Bool.and_eq_true, Bool.not_eq_true'] at ht
  obtain ⟨⟨h4, h3⟩, h2⟩ := ht
  exact (decoder_two h4 h3 h2).symm

theorem ite_one_eq_decoder (h : DecHigh) (p : PackedWord) :
    (if !decTest4 p && !decTest3 h p && !decTest2 h p && decTest1 h p then decSuccess (decCp1 p)
     else decoder h p) = decoder h p := by
  refine ite_eq_right_iff.mpr fun ht => ?_
  simp only [Bool.and_eq_true, Bool.not_eq_true'] at ht
  obtain ⟨⟨⟨h4, h3⟩, h2⟩, h1⟩ := ht
  exact (decoder_one h4 h3 h2 h1).symm

theorem ite_invalid_eq_decoder (h : DecHigh) (p : PackedWord) :
    (if !decTest4 p && !decTest3 h p && !decTest2 h p && !decTest1 h p then decFailure
     else decoder h p) = decoder h p := by
  refine ite_eq_right_iff.mpr fun ht => ?_
  simp only [Bool.and_eq_true, Bool.not_eq_true'] at ht
  obtain ⟨⟨⟨h4, h3⟩, h2⟩, h1⟩ := ht
  exact (decoder_invalid h4 h3 h2 h1).symm

/-- The Decoder's outputs are those of one of its five forms. -/
theorem decoder_cases (h : DecHigh) (p : PackedWord) :
    decoder h p = decSuccess (decCp4 p) ∨ decoder h p = decSuccess (decCp3 p) ∨
    decoder h p = decSuccess (decCp2 p) ∨ decoder h p = decSuccess (decCp1 p) ∨
    decoder h p = decFailure := by
  unfold decoder
  split_ifs <;> simp

theorem dec4Word_toNat (l : BitVec 3) (c2 c3 c4 : Byte) : (dec4Word l c2 c3 c4).toNat =
    (((0xF0 + l.toNat) * 2 ^ 8 + c2.toNat) * 2 ^ 8 + c3.toNat) * 2 ^ 8 + c4.toNat := by
  unfold dec4Word
  iterate 4 rw [Bits.toNat_append_add]
  rfl

theorem decTest4_dec4Word (l : BitVec 3) (c2 c3 c4 : Byte) :
    decTest4 (dec4Word l c2 c3 c4) = true := by
  rw [decTest4, beq_iff_eq, Bits.extractLsb_eq_iff, dec4Word_toNat, BitVec.toNat_ofNat]
  omega

/-! ## Each form is its transaction (R66, R69) -/

theorem next_evalSp_congr {s : State} {b : Byte} {o o' : SpOut} (h : o = o') :
    (.next (s.evalSp b o) : Host.Outcome State Fault Refusal) = .next (s.evalSp b o') := by rw [h]

theorem next_evalEnc_congr {s : State} {c : CodeWord} {o o' : EncOut} (h : o = o') :
    (.next (s.evalEnc c o) : Host.Outcome State Fault Refusal) = .next (s.evalEnc c o') := by rw [h]

theorem next_evalDec_congr {s : State} {p : PackedWord} {o o' : DecOut} (h : o = o') :
    (.next (s.evalDec p o) : Host.Outcome State Fault Refusal) = .next (s.evalDec p o') := by rw [h]

/-- A form drives its channel's function of its word, also where its operands are not well formed
(log entry 8): each meaning falls back on the function where the form's own test fails. -/
theorem exec_eq_exec_asTransaction (i : Instr) (s : State) : exec i s = exec i.asTransaction s := by
  cases i with
  | size lead => rfl
  | encode cp => rfl
  | decode packed => rfl
  | reserved => rfl
  | sp4 x => exact next_evalSp_congr (sizeProbe_sp4Word x).symm
  | sp3 x => exact next_evalSp_congr (sizeProbe_sp3Word x).symm
  | sp2 x => exact next_evalSp_congr (sizeProbe_sp2Word x).symm
  | sp1 x => exact next_evalSp_congr (sizeProbe_sp1Word x).symm
  | spInvCont x => exact next_evalSp_congr (sizeProbe_spInvContWord x).symm
  | spInvMalformed x => exact next_evalSp_congr (sizeProbe_spInvMalformedWord x).symm
  | enc1 c => exact next_evalEnc_congr (encoder_enc1Word c).symm
  | enc2 c => exact next_evalEnc_congr (ite_eq_right_iff.mpr fun h => (encoder_enc2Word h).symm)
  | enc3 c => exact next_evalEnc_congr (ite_eq_right_iff.mpr fun h => (encoder_enc3Word h).symm)
  | enc4Low c => exact next_evalEnc_congr (ite_eq_right_iff.mpr fun h => (encoder_enc4LowWord h).symm)
  | enc4High c => exact next_evalEnc_congr (encoder_enc4HighWord c).symm
  | encFail c => exact next_evalEnc_congr (ite_eq_right_iff.mpr fun h => (encoder_fail h).symm)
  | dec4 l c2 c3 c4 => exact next_evalDec_congr (decoder_four (decTest4_dec4Word l c2 c3 c4)).symm
  | dec3 high l c2 c3 => exact next_evalDec_congr (ite_three_eq_decoder _ _)
  | dec2 high l c2 => exact next_evalDec_congr (ite_two_eq_decoder _ _)
  | dec1 high x => exact next_evalDec_congr (ite_one_eq_decoder _ _)
  | decInv p => exact next_evalDec_congr (ite_invalid_eq_decoder _ _)

/-- Every instruction is for one of the three operations on one word, or it is RESERVED. -/
theorem asTransaction_cases (i : Instr) :
    (∃ b, i.asTransaction = .size b ∧ i.channel = some .sp) ∨
    (∃ c, i.asTransaction = .encode c ∧ i.channel = some .enc) ∨
    (∃ p, i.asTransaction = .decode p ∧ i.channel = some .dec) ∨
    (i.asTransaction = .reserved ∧ i.channel = none) := by
  cases i <;> simp [Instr.asTransaction, Instr.channel]

/-- What an instruction does, the same in every state: it evaluates its channel's function on a word that
it alone fixes, or it is RESERVED and refused. -/
theorem exec_cases (i : Instr) :
    (i.channel = some .sp ∧ ∃ b, ∀ s, exec i s = .next (s.evalSp b (sizeProbe b))) ∨
    (i.channel = some .enc ∧ ∃ c, ∀ s, exec i s = .next (s.evalEnc c (encoder c))) ∨
    (i.channel = some .dec ∧ ∃ p, ∀ s, exec i s = .next (s.evalDec p (decoder pDecHigh p))) ∨
    (i.channel = none ∧ ∀ s, exec i s = .refused .reservedIdentifier) := by
  obtain ⟨b, ht, hch⟩ | ⟨c, ht, hch⟩ | ⟨p, ht, hch⟩ | ⟨ht, hch⟩ := asTransaction_cases i
  · exact .inl ⟨hch, b, fun s => by rw [exec_eq_exec_asTransaction, ht]; rfl⟩
  · exact .inr (.inl ⟨hch, c, fun s => by rw [exec_eq_exec_asTransaction, ht]; rfl⟩)
  · exact .inr (.inr (.inl ⟨hch, p, fun s => by rw [exec_eq_exec_asTransaction, ht]; rfl⟩))
  · exact .inr (.inr (.inr ⟨hch, fun s => by rw [exec_eq_exec_asTransaction, ht]; rfl⟩))

/-! ## The samples after an evaluation -/

@[simp] theorem State.evalSp_sample (b : Byte) (o : SpOut) (s : State) :
    (s.evalSp b o).sample .sp = .size o.size o.err := rfl
@[simp] theorem State.evalEnc_sample (c : CodeWord) (o : EncOut) (s : State) :
    (s.evalEnc c o).sample .enc = .encode o.packed o.len o.err := rfl
@[simp] theorem State.evalDec_sample (p : PackedWord) (o : DecOut) (s : State) :
    (s.evalDec p o).sample .dec = .decode o.cp o.err := rfl

/-- The word an instruction evaluates is the instruction's own, so its channel's sample afterwards is the
same whatever the state it ran from. -/
theorem exists_sample_of_channel {i : Instr} {ch : Channel} (hch : i.channel = some ch) :
    ∃ r, ∀ s t, exec i s = .next t → t.sample ch = r := by
  obtain ⟨hi, b, hx⟩ | ⟨hi, c, hx⟩ | ⟨hi, p, hx⟩ | ⟨hi, -⟩ := exec_cases i
  · cases hi.symm.trans hch
    exact ⟨.size (sizeProbe b).size (sizeProbe b).err, fun s t h => by
      cases (hx s).symm.trans h
      exact State.evalSp_sample b _ s⟩
  · cases hi.symm.trans hch
    exact ⟨.encode (encoder c).packed (encoder c).len (encoder c).err, fun s t h => by
      cases (hx s).symm.trans h
      exact State.evalEnc_sample c _ s⟩
  · cases hi.symm.trans hch
    exact ⟨.decode (decoder pDecHigh p).cp (decoder pDecHigh p).err, fun s t h => by
      cases (hx s).symm.trans h
      exact State.evalDec_sample p _ s⟩
  · cases hi.symm.trans hch

/-- Settles O46: both samples are the one response the instruction fixes. -/
theorem outputsDependOnTheInputAlone : Obligations.OutputsDependOnTheInputAlone := by
  intro i s₁ s₂ t₁ t₂ ch hch h₁ h₂
  obtain ⟨r, hr⟩ := exists_sample_of_channel hch
  exact (hr s₁ t₁ h₁).trans (hr s₂ t₂ h₂).symm

/-! ## The invariant, channel by channel -/

/-- What the invariant lets a channel of function `f` be: not driven, or settled on its function of the
input on its port. -/
def Phase.Sound {α β : Type} (f : α → β) (ph : Phase α β) : Prop :=
  ph = .undriven ∨ ∃ v, ph = .settled v (f v)

theorem Phase.sound_undriven {α β : Type} (f : α → β) : (Phase.undriven : Phase α β).Sound f := .inl rfl

theorem Phase.sound_settled {α β : Type} (f : α → β) (v : α) : (Phase.settled v (f v)).Sound f :=
  .inr ⟨v, rfl⟩

/-- A channel is sound when it is consistent (R23) and outside its settle interval (R245). -/
theorem Phase.sound_iff {α β : Type} (f : α → β) (ph : Phase α β) :
    ph.Sound f ↔ ph.Consistent f ∧ ph.quiet = true := by
  cases ph with
  | undriven => simp [Phase.Sound]
  | settling v => simp [Phase.Sound]
  | settled v o => simp [Phase.Sound]

/-- A sound channel whose input is driven shows its function of that input. -/
theorem Phase.Sound.settled_of_input {α β : Type} {f : α → β} {ph : Phase α β} (h : ph.Sound f)
    (hin : ph.input.isSome = true) : ∃ v, ph = .settled v (f v) := by
  obtain rfl | h := h
  · cases hin
  · exact h

/-- Driving a sound channel and letting it settle, or leaving it alone, keeps it sound. -/
theorem Phase.Sound.after {α β : Type} {f : α → β} {ph : Phase α β} (h : ph.Sound f) (driven : Option α) :
    (ph.after f driven).Sound f := by
  cases driven with
  | none => exact h
  | some v => exact Phase.sound_settled f v

/-- The invariant says of each channel, on its own, that it is sound. -/
theorem State.inv_iff (s : State) :
    s.Inv ↔ s.sp.Sound sizeProbe ∧ s.enc.Sound encoder ∧ s.dec.Sound (decoder pDecHigh) := by
  simp only [Phase.sound_iff]
  constructor
  · rintro ⟨⟨hsp, henc, hdec⟩, ⟨qsp, qenc, qdec⟩⟩
    exact ⟨⟨hsp, qsp⟩, ⟨henc, qenc⟩, ⟨hdec, qdec⟩⟩
  · rintro ⟨⟨hsp, qsp⟩, ⟨henc, qenc⟩, ⟨hdec, qdec⟩⟩
    exact ⟨⟨hsp, henc, hdec⟩, ⟨qsp, qenc, qdec⟩⟩

/-- Settles O42: no channel is driven at reset. -/
theorem resetMeetsTheInvariant : Obligations.ResetMeetsTheInvariant :=
  State.reset.inv_iff.mpr ⟨Phase.sound_undriven _, Phase.sound_undriven _, Phase.sound_undriven _⟩

/-! ## Every step keeps the invariant -/

theorem State.Inv.tick {s : State} (h : s.Inv) : s.tick.Inv := s.tick.inv_iff.mpr (s.inv_iff.mp h)

theorem State.Inv.withActions {s : State} (h : s.Inv) (rest : List HostAction) :
    State.Inv { s with actions := rest } := (State.inv_iff _).mpr (s.inv_iff.mp h)

theorem State.Inv.float {s : State} (h : s.Inv) (ch : Channel) : (s.float ch).Inv := by
  obtain ⟨hsp, henc, hdec⟩ := s.inv_iff.mp h
  rw [State.inv_iff]
  cases ch with
  | sp => exact ⟨Phase.sound_undriven _, henc, hdec⟩
  | enc => exact ⟨hsp, Phase.sound_undriven _, hdec⟩
  | dec => exact ⟨hsp, henc, Phase.sound_undriven _⟩

theorem execTogether_keeps_inv {lead : Option Byte} {cp : Option CodeWord} {packed : Option PackedWord}
    {s t : State} (h : s.Inv) (ht : execTogether lead cp packed s = .next t) : t.Inv := by
  obtain ⟨hsp, henc, hdec⟩ := s.inv_iff.mp h
  cases ht
  exact (State.inv_iff _).mpr ⟨hsp.after lead, henc.after cp, hdec.after packed⟩

/-- An instruction leaves its own channel settled on its function, and the two others as they are. -/
theorem exec_keeps_inv {i : Instr} {s t : State} (h : s.Inv) (ht : exec i s = .next t) : t.Inv := by
  obtain ⟨hsp, henc, hdec⟩ := s.inv_iff.mp h
  rw [State.inv_iff]
  obtain ⟨-, b, hx⟩ | ⟨-, c, hx⟩ | ⟨-, p, hx⟩ | ⟨-, hx⟩ := exec_cases i
  · cases (hx s).symm.trans ht
    exact ⟨Phase.sound_settled _ b, henc, hdec⟩
  · cases (hx s).symm.trans ht
    exact ⟨hsp, Phase.sound_settled _ c, hdec⟩
  · cases (hx s).symm.trans ht
    exact ⟨hsp, henc, Phase.sound_settled _ p⟩
  · cases (hx s).symm.trans ht

/-- Settles O43, by what a step can be: idle, an instruction, a floated port, several ports driven. -/
theorem stepKeepsOutputsTheFunctionOfInputs : Obligations.StepKeepsOutputsTheFunctionOfInputs := by
  intro s t hs hstep
  obtain ⟨-, rfl⟩ | ⟨_, rest, i, -, -, hi⟩ | ⟨ch, rest, -, rfl⟩ | ⟨_, _, _, rest, -, ht⟩ :=
    step_next_cases hstep
  · exact hs.tick
  · exact exec_keeps_inv (hs.withActions rest) hi
  · exact (hs.withActions rest).float ch
  · exact execTogether_keeps_inv (hs.withActions rest) ht

/-! ## The range of each output (R24) -/

/-- Zero extension adds no bit. -/
theorem toNat_setWidth_lt {w : Nat} (v : Nat) (x : BitVec w) : (x.setWidth v).toNat < 2 ^ w := by
  rw [BitVec.toNat_setWidth]
  exact (Nat.mod_le _ _).trans_lt x.isLt

theorem sizeProbe_size_le (b : Byte) : (sizeProbe b).size.toNat ≤ 4 := by
  unfold sizeProbe
  split_ifs <;> decide

theorem encoder_len_le (c : CodeWord) : (encoder c).len.toNat ≤ 4 := by
  obtain h | h | h | h | h := encoder_cases c <;> rw [h] <;> simp [encFailure, encOutOf, sizePort]

/-- The packed value holds no more than the bytes its length counts (R41, R42). -/
theorem encoder_packed_lt (c : CodeWord) :
    (encoder c).packed.toNat < 2 ^ (8 * (encoder c).len.toNat) := by
  obtain h | h | h | h | h := encoder_cases c <;> rw [h]
  · exact toNat_setWidth_lt 32 (0b0#1 ++ c.extractLsb 6 0)
  · exact toNat_setWidth_lt 32 (0b110#3 ++ c.extractLsb 10 6 ++ 0b10#2 ++ c.extractLsb 5 0)
  · exact toNat_setWidth_lt 32 (0b1110#4 ++ c.extractLsb 15 12 ++ 0b10#2 ++ c.extractLsb 11 6 ++ 0b10#2
      ++ c.extractLsb 5 0)
  · exact (encPacked4 c).isLt
  · decide

/-- A decoded value has at most 21 bits, those of DEC.4 (R149). -/
theorem decoder_cp_lt (h : DecHigh) (p : PackedWord) : (decoder h p).cp.toNat < 2 ^ 21 := by
  obtain hf | hf | hf | hf | hf := decoder_cases h p <;> rw [hf]
  · exact toNat_setWidth_lt 64 (p.extractLsb 26 24 ++ p.extractLsb 21 16 ++ p.extractLsb 13 8
      ++ p.extractLsb 5 0)
  · exact (toNat_setWidth_lt 64 (p.extractLsb 19 16 ++ p.extractLsb 13 8 ++ p.extractLsb 5 0)).trans
      (by decide)
  · exact (toNat_setWidth_lt 64 (p.extractLsb 12 8 ++ p.extractLsb 5 0)).trans (by decide)
  · exact (toNat_setWidth_lt 64 (p.extractLsb 6 0)).trans (by decide)
  · decide

/-- The bits of a word from bit `lo` up are 0 when its number is below `2 ^ lo`. -/
theorem extractLsb_eq_zero_of_lt {w lo : Nat} (hi : Nat) {v : BitVec w} (h : v.toNat < 2 ^ lo) :
    v.extractLsb hi lo = 0 := by
  rw [Bits.extractLsb_eq_iff, Nat.div_eq_of_lt h]
  simp

/-- Settles O44: each channel is settled on its function, whose outputs have the ranges above. -/
theorem unsetOutputBitsAreZero : Obligations.UnsetOutputBitsAreZero := by
  intro s hs hl
  obtain ⟨hsp, henc, hdec⟩ := s.inv_iff.mp hs
  simp only [State.launched, Bool.and_eq_true] at hl
  obtain ⟨⟨lsp, lenc⟩, ldec⟩ := hl
  obtain ⟨b, hb⟩ := hsp.settled_of_input lsp
  obtain ⟨c, hc⟩ := henc.settled_of_input lenc
  obtain ⟨p, hp⟩ := hdec.settled_of_input ldec
  rw [State.spSize_of_settled hb, State.encLen_of_settled hc, State.encPacked_of_settled hc,
    State.decCp_of_settled hp]
  exact ⟨extractLsb_eq_zero_of_lt 7 ((sizeProbe_size_le b).trans_lt (by decide)),
    extractLsb_eq_zero_of_lt 7 ((encoder_len_le c).trans_lt (by decide)),
    extractLsb_eq_zero_of_lt 63 (decoder_cp_lt pDecHigh p), fun _ => encoder_packed_lt c⟩

end Sys2Proof.Machine

namespace Sys2Proof.Machine

/-! # Byte order and channel independence (spec/20_memory.md)

A packed value is built one byte at a time from the right, so the facts about its bytes go by induction on
the sequence from its end. Evaluations commute because each is a write of one channel's ports alone. -/

/-! ## Packing bytes (R41, R42) -/

/-- Appending a byte on the right shifts the bytes before it up by one position. -/
theorem shiftLeft_or_byte_toNat (x : PackedWord) (b : Byte) :
    (x <<< 8 ||| b.setWidth 32).toNat = (x.toNat * 256 + b.toNat) % 2 ^ 32 := by
  have hdisj : x <<< 8 &&& b.setWidth 32 = 0#32 := by
    ext i hi
    by_cases h8 : i < 8
    · simp [h8]
    · simp [BitVec.getLsbD_of_ge b i (Nat.le_of_not_lt h8)]
  rw [← BitVec.add_eq_or_of_and_eq_zero _ _ hdisj, BitVec.toNat_add, BitVec.toNat_shiftLeft,
    BitVec.toNat_setWidth_of_le (by decide), Nat.shiftLeft_eq]
  omega

@[simp] theorem packBytes_nil : packBytes [] = 0 := rfl

theorem packBytes_concat_toNat (bytes : List Byte) (b : Byte) :
    (packBytes (bytes ++ [b])).toNat = ((packBytes bytes).toNat * 256 + b.toNat) % 2 ^ 32 := by
  rw [packBytes, List.foldl_concat]
  exact shiftLeft_or_byte_toNat (packBytes bytes) b

/-- Every bit above the packed sequence is 0 (R42). -/
theorem packBytes_toNat_lt (bytes : List Byte) :
    (packBytes bytes).toNat < 2 ^ (8 * bytes.length) := by
  induction bytes using List.reverseRecOn with
  | nil => simp
  | append_singleton bytes b ih =>
    have hpow : 2 ^ (8 * (bytes ++ [b]).length) = 2 ^ (8 * bytes.length) * 2 ^ 8 := by
      rw [List.length_append, List.length_singleton, Nat.mul_succ, Nat.pow_add]
    rw [packBytes_concat_toNat, hpow]
    omega

theorem packedByte_toNat (p : PackedWord) (n k : Nat) :
    (packedByte p n k).toNat = p.toNat / 2 ^ (8 * (n - k)) % 2 ^ 8 := by
  rw [packedByte, BitVec.toNat_setWidth, BitVec.toNat_ushiftRight, Nat.shiftRight_eq_div_pow]

/-- The last byte of a packed sequence is at the bottom. -/
theorem packedByte_packBytes_concat_last (bytes : List Byte) (b : Byte) (n : Nat) :
    packedByte (packBytes (bytes ++ [b])) n n = b := by
  apply BitVec.eq_of_toNat_eq
  rw [packedByte_toNat, packBytes_concat_toNat, Nat.sub_self]
  omega

/-- A byte added on the right of at most three leaves the positions of the others, counted from the lead
byte, as they are. -/
theorem packedByte_packBytes_concat {bytes : List Byte} {b : Byte} {n k : Nat}
    (hlen : bytes.length ≤ 3) (hk : k ≤ n) :
    packedByte (packBytes (bytes ++ [b])) (n + 1) k = packedByte (packBytes bytes) n k := by
  have hlt : (packBytes bytes).toNat < 2 ^ 24 :=
    (packBytes_toNat_lt bytes).trans_le (Nat.pow_le_pow_right (by decide) (by omega))
  have hpos : 8 * (n + 1 - k) = 8 + 8 * (n - k) := by omega
  have hdiv : ((packBytes bytes).toNat * 256 + b.toNat) % 2 ^ 32 / 2 ^ 8 = (packBytes bytes).toNat := by
    omega
  apply BitVec.eq_of_toNat_eq
  rw [packedByte_toNat, packedByte_toNat, packBytes_concat_toNat, hpos, Nat.pow_add,
    ← Nat.div_div_eq_div_mul, hdiv]

/-- Byte `k` of a sequence of at most four stands at its place in the packed value (R41). -/
theorem getElem?_eq_packedByte {bytes : List Byte} {k : Nat} (hlen : bytes.length ≤ 4) (hk : 1 ≤ k)
    (hkn : k ≤ bytes.length) :
    bytes[k - 1]? = some (packedByte (packBytes bytes) bytes.length k) := by
  induction bytes using List.reverseRecOn with
  | nil => exact absurd hkn (Nat.not_le.mpr hk)
  | append_singleton bytes b ih =>
    rw [List.length_append, List.length_singleton] at hlen hkn ⊢
    obtain hlast | hbefore := Nat.eq_or_lt_of_le hkn
    · rw [hlast, packedByte_packBytes_concat_last, Nat.add_sub_cancel, List.getElem?_concat_length]
    · rw [packedByte_packBytes_concat (by omega) (by omega), List.getElem?_append_left (by omega)]
      exact ih (by omega) (by omega)

/-! ## The packed values of the ENC forms as numbers (R121 to R124)

The widths of the fields are reduced to numerals only after the concatenations, whose types name them, are
gone. -/

theorem encPacked1_toNat (c : CodeWord) : (encPacked1 c).toNat = c.toNat % 128 := by
  simp only [encPacked1, BitVec.toNat_setWidth, Bits.toNat_append_add, Bits.toNat_extractLsb_div,
    BitVec.toNat_ofNat]
  simp only [Nat.reduceAdd, Nat.reduceSub, Nat.reducePow]
  omega

theorem encPacked2_toNat (c : CodeWord) : (encPacked2 c).toNat =
    (0xC0 + c.toNat / 64 % 32) * 256 + (0x80 + c.toNat % 64) := by
  simp only [encPacked2, BitVec.toNat_setWidth, Bits.toNat_append_add, Bits.toNat_extractLsb_div,
    BitVec.toNat_ofNat]
  simp only [Nat.reduceAdd, Nat.reduceSub, Nat.reducePow]
  omega

theorem encPacked3_toNat (c : CodeWord) : (encPacked3 c).toNat =
    (0xE0 + c.toNat / 4096 % 16) * 65536 + (0x80 + c.toNat / 64 % 64) * 256 + (0x80 + c.toNat % 64) := by
  simp only [encPacked3, BitVec.toNat_setWidth, Bits.toNat_append_add, Bits.toNat_extractLsb_div,
    BitVec.toNat_ofNat]
  simp only [Nat.reduceAdd, Nat.reduceSub, Nat.reducePow]
  omega

theorem encPacked4_toNat (c : CodeWord) : (encPacked4 c).toNat =
    (0xF0 + c.toNat / 262144 % 8) * 16777216 + (0x80 + c.toNat / 4096 % 64) * 65536
      + (0x80 + c.toNat / 64 % 64) * 256 + (0x80 + c.toNat % 64) := by
  simp only [encPacked4, BitVec.toNat_setWidth, Bits.toNat_append_add, Bits.toNat_extractLsb_div,
    BitVec.toNat_ofNat]
  simp only [Nat.reduceAdd, Nat.reduceSub, Nat.reducePow]
  omega

/-! ## The table's bytes as numbers -/

theorem leadByte2_toNat (x : BitVec 5) : (leadByte2 x).toNat = 0xC0 + x.toNat := Bits.toNat_append_add _ x
theorem leadByte3_toNat (x : BitVec 4) : (leadByte3 x).toNat = 0xE0 + x.toNat := Bits.toNat_append_add _ x
theorem leadByte4_toNat (x : BitVec 3) : (leadByte4 x).toNat = 0xF0 + x.toNat := Bits.toNat_append_add _ x
theorem contByte_toNat (x : BitVec 6) : (contByte x).toNat = 0x80 + x.toNat := Bits.toNat_append_add _ x

theorem encPacked1_eq_packBytes {c : CodeWord} (h : c ≤ 0x7F) :
    encPacked1 c = packBytes [c.extractLsb 7 0] := by
  have hc : c.toNat ≤ 0x7F := h
  apply BitVec.eq_of_toNat_eq
  simp only [encPacked1_toNat, packBytes, List.foldl, shiftLeft_or_byte_toNat,
    Bits.toNat_extractLsb_div, BitVec.ofNat_eq_ofNat, BitVec.toNat_zero,
    Nat.reduceAdd, Nat.reduceSub, Nat.reducePow]
  omega

theorem encPacked2_eq_packBytes (c : CodeWord) :
    encPacked2 c = packBytes [leadByte2 (c.extractLsb 10 6), contByte (c.extractLsb 5 0)] := by
  apply BitVec.eq_of_toNat_eq
  simp only [encPacked2_toNat, packBytes, List.foldl, shiftLeft_or_byte_toNat, leadByte2_toNat,
    contByte_toNat, Bits.toNat_extractLsb_div, BitVec.ofNat_eq_ofNat, BitVec.toNat_zero,
    Nat.reduceAdd, Nat.reduceSub, Nat.reducePow]
  omega

theorem encPacked3_eq_packBytes (c : CodeWord) :
    encPacked3 c = packBytes [leadByte3 (c.extractLsb 15 12), contByte (c.extractLsb 11 6),
      contByte (c.extractLsb 5 0)] := by
  apply BitVec.eq_of_toNat_eq
  simp only [encPacked3_toNat, packBytes, List.foldl, shiftLeft_or_byte_toNat, leadByte3_toNat,
    contByte_toNat, Bits.toNat_extractLsb_div, BitVec.ofNat_eq_ofNat, BitVec.toNat_zero,
    Nat.reduceAdd, Nat.reduceSub, Nat.reducePow]
  omega

theorem encPacked4_eq_packBytes (c : CodeWord) :
    encPacked4 c = packBytes [leadByte4 (c.extractLsb 20 18), contByte (c.extractLsb 17 12),
      contByte (c.extractLsb 11 6), contByte (c.extractLsb 5 0)] := by
  apply BitVec.eq_of_toNat_eq
  simp only [encPacked4_toNat, packBytes, List.foldl, shiftLeft_or_byte_toNat, leadByte4_toNat,
    contByte_toNat, Bits.toNat_extractLsb_div, BitVec.ofNat_eq_ofNat, BitVec.toNat_zero,
    Nat.reduceAdd, Nat.reduceSub, Nat.reducePow]
  omega

/-- The packed value is the packing of the table's bytes, of which there are none on failure (R41, R68). -/
theorem encoder_packed_eq_packBytes (c : CodeWord) :
    (encoder c).packed = packBytes (encoderBytes c) := by
  unfold encoder encoderBytes
  split_ifs with h1
  · exact encPacked1_eq_packBytes h1
  · exact encPacked2_eq_packBytes c
  · exact encPacked3_eq_packBytes c
  · exact encPacked4_eq_packBytes c
  · rfl

theorem encoder_len_eq_length (c : CodeWord) :
    (encoder c).len.toNat = (encoderBytes c).length := by
  unfold encoder encoderBytes
  split_ifs <;> rfl

/-- Settles O16: the packed value is the packing of at most four bytes, each of which stands at its place. -/
theorem encodedBytesAreBigEndian : Obligations.EncodedBytesAreBigEndian := by
  intro c _
  have hlen : (encoderBytes c).length ≤ 4 := encoder_len_eq_length c ▸ encoder_len_le c
  rw [encoder_packed_eq_packBytes]
  exact ⟨rfl, encoder_len_eq_length c, fun _ hk hkn => getElem?_eq_packedByte hlen hk hkn,
    packBytes_toNat_lt _⟩

/-! ## ASCII, and the lead byte without the length (R43, R44) -/

/-- Settles O18: ENC.1 packs the 7 bits of the code point, which are all it has. -/
theorem asciiPacksToItself : Obligations.AsciiPacksToItself := by
  intro c hc
  rw [encoder_one hc]
  refine ⟨?_, rfl⟩
  calc (encPacked1 c).toNat = c.toNat % 128 := encPacked1_toNat c
    _ = c.toNat := Nat.mod_eq_of_lt (Nat.lt_succ_of_le hc)

/-- The ladder of R44 reads the lead bytes of the lengths 4 to 1 in turn. -/
theorem topNonzeroByte_eq_ladder (p : PackedWord) : topNonzeroByte p =
    if leadByteOf p 4 ≠ 0 then leadByteOf p 4 else if leadByteOf p 3 ≠ 0 then leadByteOf p 3
    else if leadByteOf p 2 ≠ 0 then leadByteOf p 2 else leadByteOf p 1 := by
  have h4 : p.extractLsb 31 24 = leadByteOf p 4 := rfl
  have h3 : p.extractLsb 23 16 = leadByteOf p 3 := rfl
  have h2 : p.extractLsb 15 8 = leadByteOf p 2 := rfl
  have h1 : p.extractLsb 7 0 = leadByteOf p 1 := rfl
  simp only [topNonzeroByte, bne_iff_ne, h4, h3, h2, h1]

theorem leadByteOf_eq_zero_of_lt {p : PackedWord} {n : Nat} (h : p.toNat < 2 ^ (8 * (n - 1))) :
    leadByteOf p n = 0 := by
  apply BitVec.eq_of_toNat_eq
  rw [leadByteOf, packedByte_toNat, Nat.div_eq_of_lt h]
  rfl

theorem leadByteOf_ne_zero {p : PackedWord} {n : Nat} (hlo : 2 ^ (8 * (n - 1)) ≤ p.toNat)
    (hhi : p.toNat < 2 ^ (8 * (n - 1)) * 2 ^ 8) : leadByteOf p n ≠ 0 := by
  have hpos : 0 < p.toNat / 2 ^ (8 * (n - 1)) := Nat.div_pos hlo (Nat.two_pow_pos _)
  have hlt : p.toNat / 2 ^ (8 * (n - 1)) < 2 ^ 8 := Nat.div_lt_of_lt_mul hhi
  intro hz
  have hz' := congrArg BitVec.toNat hz
  rw [leadByteOf, packedByte_toNat, Nat.mod_eq_of_lt hlt] at hz'
  exact hpos.ne' hz'

theorem topNonzeroByte_of_one {p : PackedWord} (h : p.toNat < 2 ^ 8) :
    topNonzeroByte p = leadByteOf p 1 := by
  have h4 : leadByteOf p 4 = 0 := leadByteOf_eq_zero_of_lt (by omega)
  have h3 : leadByteOf p 3 = 0 := leadByteOf_eq_zero_of_lt (by omega)
  have h2 : leadByteOf p 2 = 0 := leadByteOf_eq_zero_of_lt h
  rw [topNonzeroByte_eq_ladder, if_neg (not_not.mpr h4), if_neg (not_not.mpr h3),
    if_neg (not_not.mpr h2)]

theorem topNonzeroByte_of_two {p : PackedWord} (hlo : 2 ^ 8 ≤ p.toNat) (hhi : p.toNat < 2 ^ 16) :
    topNonzeroByte p = leadByteOf p 2 := by
  have h4 : leadByteOf p 4 = 0 := leadByteOf_eq_zero_of_lt (by omega)
  have h3 : leadByteOf p 3 = 0 := leadByteOf_eq_zero_of_lt hhi
  have h2 : leadByteOf p 2 ≠ 0 := leadByteOf_ne_zero hlo hhi
  rw [topNonzeroByte_eq_ladder, if_neg (not_not.mpr h4), if_neg (not_not.mpr h3), if_pos h2]

theorem topNonzeroByte_of_three {p : PackedWord} (hlo : 2 ^ 16 ≤ p.toNat) (hhi : p.toNat < 2 ^ 24) :
    topNonzeroByte p = leadByteOf p 3 := by
  have h4 : leadByteOf p 4 = 0 := leadByteOf_eq_zero_of_lt hhi
  have h3 : leadByteOf p 3 ≠ 0 := leadByteOf_ne_zero hlo hhi
  rw [topNonzeroByte_eq_ladder, if_neg (not_not.mpr h4), if_pos h3]

theorem topNonzeroByte_of_four {p : PackedWord} (hlo : 2 ^ 24 ≤ p.toNat) :
    topNonzeroByte p = leadByteOf p 4 := by
  have h4 : leadByteOf p 4 ≠ 0 := leadByteOf_ne_zero hlo p.isLt
  rw [topNonzeroByte_eq_ladder, if_pos h4]

/-- Settles O19: the packed value of a form longer than one byte reaches into the byte its length counts to,
and no form reaches above it. -/
theorem leadByteIsTopNonzeroByte : Obligations.LeadByteIsTopNonzeroByte := by
  intro c hc
  obtain h | ⟨hlo, hhi⟩ | ⟨hlo, hhi⟩ | hlo : c.toNat ≤ 0x7F ∨ (0x80 ≤ c.toNat ∧ c.toNat ≤ 0x7FF) ∨
      (0x800 ≤ c.toNat ∧ c.toNat ≤ 0xFFFF) ∨ 0x10000 ≤ c.toNat := by omega
  · have hp := encPacked1_toNat c
    rw [encoder_one h]
    exact topNonzeroByte_of_one (p := encPacked1 c) (by omega)
  · have hp := encPacked2_toNat c
    rw [encoder_two hlo hhi]
    exact topNonzeroByte_of_two (p := encPacked2 c) (by omega) (by omega)
  · have hp := encPacked3_toNat c
    rw [encoder_three hlo hhi]
    exact topNonzeroByte_of_three (p := encPacked3 c) (by omega) (by omega)
  · have hp := encPacked4_toNat c
    rw [encoder_four hlo hc]
    exact topNonzeroByte_of_four (p := encPacked4 c) (by omega)

/-! ## An instruction is the evaluation of one word (R23, R48, R51) -/

/-- A word for the input port of one channel. -/
inductive PortWord where
  | lead (b : Byte)
  | cp (c : CodeWord)
  | packed (p : PackedWord)

/-- The channel whose port the word is for. -/
def PortWord.channel : PortWord → Channel
  | .lead _ => .sp
  | .cp _ => .enc
  | .packed _ => .dec

/-- Drive the word and let its channel settle on its function of it (R245). -/
def PortWord.eval : PortWord → State → State
  | .lead b, s => s.evalSp b (sizeProbe b)
  | .cp c, s => s.evalEnc c (encoder c)
  | .packed p, s => s.evalDec p (decoder pDecHigh p)

/-- An instruction that completes in some state evaluates one word of its channel, in every state. -/
theorem exists_eval_of_exec_next {i : Instr} {s t : State} (h : exec i s = .next t) :
    ∃ w : PortWord, i.channel = some w.channel ∧ ∀ r, exec i r = .next (w.eval r) := by
  obtain ⟨hi, b, hx⟩ | ⟨hi, c, hx⟩ | ⟨hi, p, hx⟩ | ⟨-, hx⟩ := exec_cases i
  · exact ⟨.lead b, hi, hx⟩
  · exact ⟨.cp c, hi, hx⟩
  · exact ⟨.packed p, hi, hx⟩
  · cases (hx s).symm.trans h

theorem PortWord.frame_eval (w : PortWord) (s : State) : s.Frame w.channel (w.eval s) := by
  cases w with
  | lead b => exact s.frame_evalSp b _
  | cp c => exact s.frame_evalEnc c _
  | packed p => exact s.frame_evalDec p _

/-- Evaluating a word again only lets time pass. -/
theorem PortWord.eval_eval (w : PortWord) (s : State) : w.eval (w.eval s) = (w.eval s).tick.tick := by
  cases w <;> rfl

/-- Words of different channels can be evaluated in either order. -/
theorem PortWord.eval_comm {v w : PortWord} (h : v.channel ≠ w.channel) (s : State) :
    v.eval (w.eval s) = w.eval (v.eval s) := by
  match v, w with
  | .lead _, .lead _ | .cp _, .cp _ | .packed _, .packed _ => exact absurd rfl h
  | .lead _, .cp _ | .lead _, .packed _ | .cp _, .lead _ => rfl
  | .cp _, .packed _ | .packed _, .lead _ | .packed _, .cp _ => rfl

/-- Settles O47: the same word is evaluated each time, and the sample after it does not depend on the state. -/
theorem evaluationIsIdempotent : Obligations.EvaluationIsIdempotent := by
  intro i s t ch ht hch
  obtain ⟨w, hw, hx⟩ := exists_eval_of_exec_next ht
  cases hw.symm.trans hch
  cases (hx s).symm.trans ht
  refine ⟨w.frame_eval s, fun u hu => ?_, fun j u v _ hv => outputsDependOnTheInputAlone i u s v _ _ hch hv ht⟩
  cases (hx _).symm.trans hu
  rw [w.eval_eval]
  exact ⟨rfl, rfl, rfl, rfl⟩

/-- Settles O48: the two instructions evaluate words of different channels. -/
theorem differentChannelsCommute : Obligations.DifferentChannelsCommute := by
  intro i j s a ab b ba hij ha hab hb hba
  obtain ⟨v, hv, hi⟩ := exists_eval_of_exec_next ha
  obtain ⟨w, hw, hj⟩ := exists_eval_of_exec_next hb
  have hne : w.channel ≠ v.channel := fun h => hij (by rw [hv, hw, h])
  cases (hi s).symm.trans ha
  cases (hj s).symm.trans hb
  cases (hj _).symm.trans hab
  cases (hi _).symm.trans hba
  exact PortWord.eval_comm hne s

end Sys2Proof.Machine

namespace Sys2Proof.Machine

/-! # Encoding (spec/30_encoding.md)

A row of a form table tests one field of the word, so a form of SP or ENC is a range of words (R63, R64) and
a form of DEC a test of the ladder (R65). A decoded form is one of the word it was decoded from, so a driven
word is evaluated as its transaction is. -/

/-! ## Channels SP and ENC: the rows by ranges (R63, R64) -/

theorem selectSp_eq_of_range (b : Byte) : selectSp b =
    if 0xF0 ≤ b.toNat ∧ b.toNat < 0xF8 then .four else if 0xE0 ≤ b.toNat ∧ b.toNat < 0xF0 then .three
    else if 0xC0 ≤ b.toNat ∧ b.toNat < 0xE0 then .two else if b.toNat < 0x80 then .one
    else if 0x80 ≤ b.toNat ∧ b.toNat < 0xC0 then .continuation else .malformed := by
  have hb : b.toNat < 2 ^ 8 := b.isLt
  have h4 : b &&& 0xF8 = 0xF0 ↔ 0xF0 ≤ b.toNat ∧ b.toNat < 0xF8 := by
    rw [Bits.mask_match_iff b 0xF8 0xF0 5 3 0b11110 rfl rfl]; omega
  have h3 : b &&& 0xF0 = 0xE0 ↔ 0xE0 ≤ b.toNat ∧ b.toNat < 0xF0 := by
    rw [Bits.mask_match_iff b 0xF0 0xE0 4 4 0b1110 rfl rfl]; omega
  have h2 : b &&& 0xE0 = 0xC0 ↔ 0xC0 ≤ b.toNat ∧ b.toNat < 0xE0 := by
    rw [Bits.mask_match_iff b 0xE0 0xC0 3 5 0b110 rfl rfl]; omega
  have h1 : b &&& 0x80 = 0x00 ↔ b.toNat < 0x80 := by
    rw [Bits.mask_match_iff b 0x80 0x00 1 7 0 rfl rfl]; omega
  have hcont : b &&& 0xC0 = 0x80 ↔ 0x80 ≤ b.toNat ∧ b.toNat < 0xC0 := by
    rw [Bits.mask_match_iff b 0xC0 0x80 2 6 0b10 rfl rfl]; omega
  simp only [selectSp, spRows, firstForm, FormRow.takes, beq_iff_eq, h4, h3, h2, h1, hcont, ite_self]

theorem selectEnc_eq_of_range (c : CodeWord) : selectEnc c =
    if c.toNat ≤ 0x7F then .one else if c.toNat ≤ 0x7FF then .two
    else if c.toNat ≤ 0xFFFF then .three else if c.toNat ≤ 0xFFFFF then .fourLow
    else if 0x100000 ≤ c.toNat ∧ c.toNat ≤ 0x10FFFF then .fourHigh else .fail := by
  have hc : c.toNat < 2 ^ 64 := c.isLt
  have h1 : c &&& 0xFFFFFFFFFFFFFF80 = 0 ↔ c.toNat ≤ 0x7F := by
    rw [Bits.mask_match_iff c 0xFFFFFFFFFFFFFF80 0 57 7 0 rfl rfl]; omega
  have h2 : c &&& 0xFFFFFFFFFFFFF800 = 0 ↔ c.toNat ≤ 0x7FF := by
    rw [Bits.mask_match_iff c 0xFFFFFFFFFFFFF800 0 53 11 0 rfl rfl]; omega
  have h3 : c &&& 0xFFFFFFFFFFFF0000 = 0 ↔ c.toNat ≤ 0xFFFF := by
    rw [Bits.mask_match_iff c 0xFFFFFFFFFFFF0000 0 48 16 0 rfl rfl]; omega
  have h4 : c &&& 0xFFFFFFFFFFF00000 = 0 ↔ c.toNat ≤ 0xFFFFF := by
    rw [Bits.mask_match_iff c 0xFFFFFFFFFFF00000 0 44 20 0 rfl rfl]; omega
  have h4' : c &&& 0xFFFFFFFFFFFF0000 = 0x100000 ↔ 0x100000 ≤ c.toNat ∧ c.toNat ≤ 0x10FFFF := by
    rw [Bits.mask_match_iff c 0xFFFFFFFFFFFF0000 0x100000 48 16 0x10 rfl rfl]; omega
  simp only [selectEnc, encRows, firstForm, FormRow.takes, beq_iff_eq, h1, h2, h3, h4, h4']

/-- Settles O15: the ranges of the rows, in the order of the table. -/
theorem encRowsSelectByRange : Obligations.EncRowsSelectByRange := by
  intro c
  rw [selectEnc_eq_of_range]
  split_ifs <;> simp only [true_iff, false_iff] <;> omega

/-! ## Channel DEC: the rows by the tests of the ladder (R65, R140) -/

theorem decTest4_iff (p : PackedWord) : decTest4 p = true ↔ p.toNat / 2 ^ 27 % 2 ^ 5 = 0b11110 := by
  rw [decTest4, beq_iff_eq, Bits.extractLsb_eq_iff]; rfl

theorem decTest3_iff (h : DecHigh) (p : PackedWord) : decTest3 h p = true ↔
    p.toNat / 2 ^ 20 % 2 ^ 4 = 0b1110 ∧ (h = .ignore ∨ p.toNat / 2 ^ 24 % 2 ^ 8 = 0) := by
  simp [decTest3, Bits.extractLsb_eq_iff]

theorem decTest2_iff (h : DecHigh) (p : PackedWord) : decTest2 h p = true ↔
    p.toNat / 2 ^ 13 % 2 ^ 3 = 0b110 ∧ (h = .ignore ∨ p.toNat / 2 ^ 16 % 2 ^ 16 = 0) := by
  simp [decTest2, Bits.extractLsb_eq_iff]

theorem decTest1_iff (h : DecHigh) (p : PackedWord) : decTest1 h p = true ↔
    p.toNat / 2 ^ 7 % 2 ^ 1 = 0 ∧ (h = .ignore ∨ p.toNat / 2 ^ 8 % 2 ^ 24 = 0) := by
  simp [decTest1, Bits.extractLsb_eq_iff]

/-- The masks of R65 read the fields that the ladder of R140 tests. -/
theorem selectDec_eq_of_tests (h : DecHigh) (p : PackedWord) : selectDec h p =
    if decTest4 p = true then .four else if decTest3 h p = true then .three
    else if decTest2 h p = true then .two else if decTest1 h p = true then .one else .invalid := by
  have h4 : p &&& 0xF8000000 = 0xF0000000 ↔ decTest4 p = true := by
    rw [Bits.mask_match_iff p 0xF8000000 0xF0000000 5 27 0b11110 rfl rfl, decTest4_iff]
  cases h with
  | ignore =>
    have h3 : p &&& 0x00F00000 = 0x00E00000 ↔ decTest3 .ignore p = true := by
      rw [Bits.mask_match_iff p 0x00F00000 0x00E00000 4 20 0b1110 rfl rfl, decTest3_iff]
      simp only [true_or, and_true]
    have h2 : p &&& 0x0000E000 = 0x0000C000 ↔ decTest2 .ignore p = true := by
      rw [Bits.mask_match_iff p 0x0000E000 0x0000C000 3 13 0b110 rfl rfl, decTest2_iff]
      simp only [true_or, and_true]
    have h1 : p &&& 0x00000080 = 0x00000000 ↔ decTest1 .ignore p = true := by
      rw [Bits.mask_match_iff p 0x00000080 0x00000000 1 7 0 rfl rfl, decTest1_iff]
      simp only [true_or, and_true]
    simp only [selectDec, decRows, firstForm, FormRow.takes, beq_iff_eq, h4, h3, h2, h1]
  | requireZero =>
    have h3 : p &&& 0xFFF00000 = 0x00E00000 ↔ decTest3 .requireZero p = true := by
      rw [Bits.mask_match_iff p 0xFFF00000 0x00E00000 12 20 0b1110 rfl rfl, decTest3_iff]
      simp only [reduceCtorEq, false_or]; omega
    have h2 : p &&& 0xFFFFE000 = 0x0000C000 ↔ decTest2 .requireZero p = true := by
      rw [Bits.mask_match_iff p 0xFFFFE000 0x0000C000 19 13 0b110 rfl rfl, decTest2_iff]
      simp only [reduceCtorEq, false_or]; omega
    have h1 : p &&& 0xFFFFFF80 = 0x00000000 ↔ decTest1 .requireZero p = true := by
      rw [Bits.mask_match_iff p 0xFFFFFF80 0x00000000 25 7 0 rfl rfl, decTest1_iff]
      simp only [reduceCtorEq, false_or]; omega
    simp only [selectDec, decRows, firstForm, FormRow.takes, beq_iff_eq, h4, h3, h2, h1]

/-- A word that two rows take has both their values, so the values agree where both masks read. -/
theorem value_and_mask_eq_of_takes {φ : Type} {w : Nat} {r₁ r₂ : FormRow φ w} {v : BitVec w}
    (h₁ : r₁.takes v = true) (h₂ : r₂.takes v = true) : r₁.value &&& r₂.mask = r₂.value &&& r₁.mask := by
  rw [FormRow.takes, beq_iff_eq] at h₁ h₂
  rw [← h₁, ← h₂, BitVec.and_assoc, BitVec.and_assoc, BitVec.and_comm r₁.mask]

/-- Settles O25: under REQUIRE_ZERO any two rows differ in a bit that both their masks read; under IGNORE the
3-byte word 0x00E0C2A3 is also taken by the 2-byte row, which comes before it when the rows are reversed. -/
theorem decRowsDisjointOnlyUnderRequireZero : Obligations.DecRowsDisjointOnlyUnderRequireZero := by
  refine ⟨fun p r₁ r₂ hr₁ hr₂ h₁ h₂ => ?_, 0x00E0C2A3, (decRows .ignore).reverse, List.reverse_perm _, ?_⟩
  · have hrows : ∀ r₁ ∈ decRows .requireZero, ∀ r₂ ∈ decRows .requireZero,
        r₁.value &&& r₂.mask = r₂.value &&& r₁.mask → r₁.form = r₂.form := by decide
    exact hrows r₁ hr₁ r₂ hr₂ (value_and_mask_eq_of_takes h₁ h₂)
  · decide

/-! ## A decoded form is one of the word it was decoded from (R66) -/

theorem decodeSpWord_asTransaction (b : Byte) : (decodeSpWord b).asTransaction = .size b := by
  have hb : b.toNat < 2 ^ 8 := b.isLt
  unfold decodeSpWord
  rw [selectSp_eq_of_range]
  split_ifs <;> refine congrArg Instr.size (BitVec.eq_of_toNat_eq ?_)
  · rw [sp4Word_toNat, Bits.toNat_extractLsb_div]; omega
  · rw [sp3Word_toNat, Bits.toNat_extractLsb_div]; omega
  · rw [sp2Word_toNat, Bits.toNat_extractLsb_div]; omega
  · rw [sp1Word_toNat, Bits.toNat_extractLsb_div]; omega
  · rw [spInvContWord_toNat, Bits.toNat_extractLsb_div]; omega
  · rw [spInvMalformedWord_toNat, Bits.toNat_extractLsb_div]; omega

theorem decodeEncWord_asTransaction (c : CodeWord) : (decodeEncWord c).asTransaction = .encode c := by
  unfold decodeEncWord
  rw [selectEnc_eq_of_range]
  split_ifs <;> refine congrArg Instr.encode (BitVec.eq_of_toNat_eq ?_)
  · rw [enc1Word_toNat, Bits.toNat_extractLsb_div]; omega
  · rw [enc2Word_toNat, Bits.toNat_extractLsb_div]; omega
  · rw [enc3Word_toNat, Bits.toNat_extractLsb_div]; omega
  · rw [enc4LowWord_toNat, Bits.toNat_extractLsb_div]; omega
  · rw [enc4HighWord_toNat, Bits.toNat_extractLsb_div]; omega
  · rfl

theorem dec3Word_toNat (high : BitVec 8) (l : BitVec 4) (c2 c3 : Byte) : (dec3Word high l c2 c3).toNat =
    ((high.toNat * 2 ^ 8 + 0xE0 + l.toNat) * 2 ^ 8 + c2.toNat) * 2 ^ 8 + c3.toNat := by
  unfold dec3Word
  iterate 4 rw [Bits.toNat_append_add]
  rw [BitVec.toNat_ofNat]; omega

theorem dec2Word_toNat (high : BitVec 16) (l : BitVec 5) (c2 : Byte) : (dec2Word high l c2).toNat =
    (high.toNat * 2 ^ 8 + 0xC0 + l.toNat) * 2 ^ 8 + c2.toNat := by
  unfold dec2Word
  iterate 3 rw [Bits.toNat_append_add]
  rw [BitVec.toNat_ofNat]; omega

theorem dec1Word_toNat (high : BitVec 24) (x : BitVec 7) : (dec1Word high x).toNat =
    high.toNat * 2 ^ 8 + x.toNat := by
  unfold dec1Word
  iterate 2 rw [Bits.toNat_append_add]
  rw [BitVec.toNat_ofNat]; omega

theorem decodeDecWord_asTransaction (h : DecHigh) (p : PackedWord) :
    (decodeDecWord h p).asTransaction = .decode p := by
  have hp : p.toNat < 2 ^ 32 := p.isLt
  unfold decodeDecWord
  rw [selectDec_eq_of_tests]
  split_ifs with h4 h3 h2 h1 <;> refine congrArg Instr.decode (BitVec.eq_of_toNat_eq ?_)
  · rw [decTest4_iff] at h4
    simp only [dec4Word_toNat, Bits.toNat_extractLsb_div]; omega
  · rw [decTest3_iff] at h3
    simp only [dec3Word_toNat, Bits.toNat_extractLsb_div]; omega
  · rw [decTest2_iff] at h2
    simp only [dec2Word_toNat, Bits.toNat_extractLsb_div]; omega
  · rw [decTest1_iff] at h1
    simp only [dec1Word_toNat, Bits.toNat_extractLsb_div]; omega
  · rfl

/-! ## Every driven word is evaluated (R69) -/

theorem decodeRequest_drive_sp (b : Byte) : decodeRequest (.drive .sp b.toNat) = .ok (decodeSpWord b) := by
  rw [decodeRequest, decodeRequestUnder, fitPort_toNat]; rfl

theorem decodeRequest_drive_enc (c : CodeWord) :
    decodeRequest (.drive .enc c.toNat) = .ok (decodeEncWord c) := by
  rw [decodeRequest, decodeRequestUnder, fitPort_toNat]; rfl

theorem decodeRequest_drive_dec (p : PackedWord) :
    decodeRequest (.drive .dec p.toNat) = .ok (decodeDecWord pDecHigh p) := by
  rw [decodeRequest, decodeRequestUnder, fitPort_toNat]; rfl

theorem exec_of_asTransaction_eq_size {i : Instr} {b : Byte} (h : i.asTransaction = .size b) (s : State) :
    exec i s = .next (s.evalSp b (sizeProbe b)) := by
  rw [exec_eq_exec_asTransaction, h]; rfl

theorem exec_of_asTransaction_eq_encode {i : Instr} {c : CodeWord} (h : i.asTransaction = .encode c)
    (s : State) : exec i s = .next (s.evalEnc c (encoder c)) := by
  rw [exec_eq_exec_asTransaction, h]; rfl

theorem exec_of_asTransaction_eq_decode {i : Instr} {p : PackedWord} (h : i.asTransaction = .decode p)
    (s : State) : exec i s = .next (s.evalDec p (decoder pDecHigh p)) := by
  rw [exec_eq_exec_asTransaction, h]; rfl

/-- Settles O7: the decoded form has the effect of the transaction of its word, which its channel
evaluates. -/
theorem everyInputValueIsEvaluated : Obligations.EveryInputValueIsEvaluated := fun s =>
  ⟨fun b => ⟨_, _, decodeRequest_drive_sp b, exec_of_asTransaction_eq_size (decodeSpWord_asTransaction b) s,
      State.evalSp_sample b _ s⟩,
    fun c => ⟨_, _, decodeRequest_drive_enc c,
      exec_of_asTransaction_eq_encode (decodeEncWord_asTransaction c) s, State.evalEnc_sample c _ s⟩,
    fun p => ⟨_, _, decodeRequest_drive_dec p,
      exec_of_asTransaction_eq_decode (decodeDecWord_asTransaction pDecHigh p) s, State.evalDec_sample p _ s⟩⟩

/-! ## The DEC forms of well-formed operands (R67, R143 to R147)

Operands are well formed exactly when the ladder stops at their form on the word they make, so the
channel's function of that word is the form's value. -/

theorem wellFormed_dec3 (h : DecHigh) (high : BitVec 8) (l : BitVec 4) (c2 c3 : Byte) :
    Instr.wellFormed h (.dec3 high l c2 c3) =
      (!decTest4 (dec3Word high l c2 c3) && decTest3 h (dec3Word high l c2 c3)) := by
  simp (disch := decide) only [decTest4, decTest3, dec3Word, BitVec.extractLsb,
    BitVec.extractLsb'_append_eq_of_le, BitVec.extractLsb'_append_eq_of_add_le]
  simp [Instr.wellFormed, DecHigh.zeroAbove, BitVec.extractLsb, BitVec.extractLsb'_eq_self, bne]

theorem wellFormed_dec2 (h : DecHigh) (high : BitVec 16) (l : BitVec 5) (c2 : Byte) :
    Instr.wellFormed h (.dec2 high l c2) =
      (!decTest4 (dec2Word high l c2) && !decTest3 h (dec2Word high l c2)
        && decTest2 h (dec2Word high l c2)) := by
  simp (disch := decide) only [decTest4, decTest3, decTest2, dec2Word, BitVec.extractLsb,
    BitVec.extractLsb'_append_eq_of_le, BitVec.extractLsb'_append_eq_of_add_le]
  simp [Instr.wellFormed, DecHigh.zeroAbove, BitVec.extractLsb, BitVec.extractLsb'_eq_self, bne]

theorem wellFormed_dec1 (h : DecHigh) (high : BitVec 24) (x : BitVec 7) :
    Instr.wellFormed h (.dec1 high x) =
      (!decTest4 (dec1Word high x) && !decTest3 h (dec1Word high x) && !decTest2 h (dec1Word high x)
        && decTest1 h (dec1Word high x)) := by
  simp (disch := decide) only [decTest4, decTest3, decTest2, decTest1, dec1Word, BitVec.extractLsb,
    BitVec.extractLsb'_append_eq_of_le, BitVec.extractLsb'_append_eq_of_add_le]
  simp [Instr.wellFormed, DecHigh.zeroAbove, BitVec.extractLsb, BitVec.extractLsb'_eq_self, bne]

theorem wellFormed_decInv (h : DecHigh) (p : PackedWord) : Instr.wellFormed h (.decInv p) =
    (!decTest4 p && !decTest3 h p && !decTest2 h p && !decTest1 h p) := rfl

theorem decoder_dec3Word {h : DecHigh} {high : BitVec 8} {l : BitVec 4} {c2 c3 : Byte}
    (hwf : Instr.wellFormed h (.dec3 high l c2 c3) = true) :
    decoder h (dec3Word high l c2 c3) = decSuccess (decCp3 (dec3Word high l c2 c3)) := by
  simp only [wellFormed_dec3, Bool.and_eq_true, Bool.not_eq_true'] at hwf
  obtain ⟨h4, h3⟩ := hwf
  exact decoder_three h4 h3

theorem decoder_dec2Word {h : DecHigh} {high : BitVec 16} {l : BitVec 5} {c2 : Byte}
    (hwf : Instr.wellFormed h (.dec2 high l c2) = true) :
    decoder h (dec2Word high l c2) = decSuccess (decCp2 (dec2Word high l c2)) := by
  simp only [wellFormed_dec2, Bool.and_eq_true, Bool.not_eq_true'] at hwf
  obtain ⟨⟨h4, h3⟩, h2⟩ := hwf
  exact decoder_two h4 h3 h2

theorem decoder_dec1Word {h : DecHigh} {high : BitVec 24} {x : BitVec 7}
    (hwf : Instr.wellFormed h (.dec1 high x) = true) :
    decoder h (dec1Word high x) = decSuccess (decCp1 (dec1Word high x)) := by
  simp only [wellFormed_dec1, Bool.and_eq_true, Bool.not_eq_true'] at hwf
  obtain ⟨⟨⟨h4, h3⟩, h2⟩, h1⟩ := hwf
  exact decoder_one h4 h3 h2 h1

theorem decoder_of_wellFormed_decInv {h : DecHigh} {p : PackedWord}
    (hwf : Instr.wellFormed h (.decInv p) = true) : decoder h p = decFailure := by
  simp only [wellFormed_decInv, Bool.and_eq_true, Bool.not_eq_true'] at hwf
  obtain ⟨⟨⟨h4, h3⟩, h2⟩, h1⟩ := hwf
  exact decoder_invalid h4 h3 h2 h1

/-! The code points of the forms as numbers, of any word and of the word of the form. -/

theorem decCp4_toNat (p : PackedWord) : (decCp4 p).toNat =
    p.toNat / 2 ^ 24 % 8 * 262144 + p.toNat / 2 ^ 16 % 64 * 4096 + p.toNat / 2 ^ 8 % 64 * 64
      + p.toNat % 64 := by
  simp only [decCp4, BitVec.toNat_setWidth, Bits.toNat_append_add, Bits.toNat_extractLsb_div]
  simp only [Nat.reduceAdd, Nat.reduceSub, Nat.reducePow]
  omega

theorem decCp3_toNat (p : PackedWord) : (decCp3 p).toNat =
    p.toNat / 2 ^ 16 % 16 * 4096 + p.toNat / 2 ^ 8 % 64 * 64 + p.toNat % 64 := by
  simp only [decCp3, BitVec.toNat_setWidth, Bits.toNat_append_add, Bits.toNat_extractLsb_div]
  simp only [Nat.reduceAdd, Nat.reduceSub, Nat.reducePow]
  omega

theorem decCp2_toNat (p : PackedWord) : (decCp2 p).toNat =
    p.toNat / 2 ^ 8 % 32 * 64 + p.toNat % 64 := by
  simp only [decCp2, BitVec.toNat_setWidth, Bits.toNat_append_add, Bits.toNat_extractLsb_div]
  simp only [Nat.reduceAdd, Nat.reduceSub, Nat.reducePow]
  omega

theorem decCp1_toNat (p : PackedWord) : (decCp1 p).toNat = p.toNat % 128 := by
  simp only [decCp1, BitVec.toNat_setWidth, Bits.toNat_extractLsb_div]
  simp only [Nat.reduceAdd, Nat.reduceSub, Nat.reducePow]
  omega

theorem decCp4_dec4Word_toNat (l : BitVec 3) (c2 c3 c4 : Byte) : (decCp4 (dec4Word l c2 c3 c4)).toNat =
    l.toNat * 262144 + c2.toNat % 64 * 4096 + c3.toNat % 64 * 64 + c4.toNat % 64 := by
  rw [decCp4_toNat, dec4Word_toNat]; omega

theorem decCp3_dec3Word_toNat (high : BitVec 8) (l : BitVec 4) (c2 c3 : Byte) :
    (decCp3 (dec3Word high l c2 c3)).toNat = l.toNat * 4096 + c2.toNat % 64 * 64 + c3.toNat % 64 := by
  rw [decCp3_toNat, dec3Word_toNat]; omega

theorem decCp2_dec2Word_toNat (high : BitVec 16) (l : BitVec 5) (c2 : Byte) :
    (decCp2 (dec2Word high l c2)).toNat = l.toNat * 64 + c2.toNat % 64 := by
  rw [decCp2_toNat, dec2Word_toNat]; omega

theorem decCp1_dec1Word_toNat (high : BitVec 24) (x : BitVec 7) :
    (decCp1 (dec1Word high x)).toNat = x.toNat := by
  rw [decCp1_toNat, dec1Word_toNat]; omega

/-- An instruction for DECODE of a word that a form takes completes with that form's code point. -/
theorem exists_exec_of_decSuccess {i : Instr} {p : PackedWord} {cp : CodeWord} {n : Nat}
    (hi : i.asTransaction = .decode p) (hp : decoder pDecHigh p = decSuccess cp) (hn : cp.toNat = n)
    (s : State) : ∃ t, exec i s = .next t ∧ t.decPacked = some p ∧ s.Frame .dec t ∧ t.decErr = 0 ∧
      t.decCp.toNat = n := by
  refine ⟨_, exec_of_asTransaction_eq_decode hi s, rfl, State.frame_evalDec s p _, ?_⟩
  rw [hp]
  exact ⟨rfl, hn⟩

/-- Settles O24: each form is DECODE of its word, at which the ladder stops at the form. -/
theorem decFormsAssembleTheirFields : Obligations.DecFormsAssembleTheirFields := by
  intro s
  refine ⟨fun l c2 c3 c4 => ?_, fun high l c2 c3 hwf => ?_, fun high l c2 hwf => ?_, fun high x hwf => ?_,
    fun p hwf => ?_⟩
  · exact exists_exec_of_decSuccess rfl (decoder_four (decTest4_dec4Word l c2 c3 c4))
      (decCp4_dec4Word_toNat l c2 c3 c4) s
  · exact exists_exec_of_decSuccess rfl (decoder_dec3Word hwf) (decCp3_dec3Word_toNat high l c2 c3) s
  · exact exists_exec_of_decSuccess rfl (decoder_dec2Word hwf) (decCp2_dec2Word_toNat high l c2) s
  · exact exists_exec_of_decSuccess rfl (decoder_dec1Word hwf) (decCp1_dec1Word_toNat high x) s
  · refine ⟨_, exec_of_asTransaction_eq_decode rfl s, rfl, State.frame_evalDec s p _, ?_⟩
    rw [decoder_of_wellFormed_decInv hwf]
    rfl

/-! ## The layout of the packed value (R61) -/

/-- The length names the form, for no two forms have the same one. -/
theorem encoder_packed_of_len (c : CodeWord) :
    ((encoder c).len = 1 → (encoder c).packed = encPacked1 c) ∧
    ((encoder c).len = 2 → (encoder c).packed = encPacked2 c) ∧
    ((encoder c).len = 3 → (encoder c).packed = encPacked3 c) ∧
    ((encoder c).len = 4 → (encoder c).packed = encPacked4 c) := by
  obtain h | h | h | h | h := encoder_cases c <;> rw [h] <;> simp [encFailure, encOutOf, sizePort]

/-- The bits above the bytes that the length counts are 0 (R42). -/
theorem encoder_packed_high_eq_zero {c : CodeWord} {n : SizeWord} (h : (encoder c).len = n) :
    (encoder c).packed.extractLsb 31 (8 * n.toNat) = 0 :=
  extractLsb_eq_zero_of_lt 31 (h ▸ encoder_packed_lt c)

theorem encPacked1_fields (c : CodeWord) :
    (encPacked1 c).extractLsb 7 7 = 0b0#1 ∧ (encPacked1 c).extractLsb 6 0 = c.extractLsb 6 0 := by
  simp (disch := decide) only [encPacked1, BitVec.extractLsb, BitVec.extractLsb'_setWidth_of_le,
    BitVec.extractLsb'_append_eq_of_le, BitVec.extractLsb'_append_eq_of_add_le]
  simp

theorem encPacked2_fields (c : CodeWord) :
    (encPacked2 c).extractLsb 15 13 = 0b110#3 ∧ (encPacked2 c).extractLsb 12 8 = c.extractLsb 10 6 ∧
    (encPacked2 c).extractLsb 7 6 = 0b10#2 ∧ (encPacked2 c).extractLsb 5 0 = c.extractLsb 5 0 := by
  simp (disch := decide) only [encPacked2, BitVec.extractLsb, BitVec.extractLsb'_setWidth_of_le,
    BitVec.extractLsb'_append_eq_of_le, BitVec.extractLsb'_append_eq_of_add_le]
  simp [BitVec.extractLsb'_eq_self]

theorem encPacked3_fields (c : CodeWord) :
    (encPacked3 c).extractLsb 23 20 = 0b1110#4 ∧ (encPacked3 c).extractLsb 19 16 = c.extractLsb 15 12 ∧
    (encPacked3 c).extractLsb 15 14 = 0b10#2 ∧ (encPacked3 c).extractLsb 13 8 = c.extractLsb 11 6 ∧
    (encPacked3 c).extractLsb 7 6 = 0b10#2 ∧ (encPacked3 c).extractLsb 5 0 = c.extractLsb 5 0 := by
  simp (disch := decide) only [encPacked3, BitVec.extractLsb, BitVec.extractLsb'_setWidth_of_le,
    BitVec.extractLsb'_append_eq_of_le, BitVec.extractLsb'_append_eq_of_add_le]
  simp [BitVec.extractLsb'_eq_self]

theorem encPacked4_fields (c : CodeWord) :
    (encPacked4 c).extractLsb 31 27 = 0b11110#5 ∧ (encPacked4 c).extractLsb 26 24 = c.extractLsb 20 18 ∧
    (encPacked4 c).extractLsb 23 22 = 0b10#2 ∧ (encPacked4 c).extractLsb 21 16 = c.extractLsb 17 12 ∧
    (encPacked4 c).extractLsb 15 14 = 0b10#2 ∧ (encPacked4 c).extractLsb 13 8 = c.extractLsb 11 6 ∧
    (encPacked4 c).extractLsb 7 6 = 0b10#2 ∧ (encPacked4 c).extractLsb 5 0 = c.extractLsb 5 0 := by
  simp (disch := decide) only [encPacked4, BitVec.extractLsb, BitVec.extractLsb'_setWidth_of_le,
    BitVec.extractLsb'_append_eq_of_le, BitVec.extractLsb'_append_eq_of_add_le]
  simp [BitVec.extractLsb'_eq_self]

/-- Settles O17: the length names the form, whose concatenation is the layout; above it is nothing. -/
theorem packedLayoutByLength : Obligations.PackedLayoutByLength := by
  intro c p
  obtain ⟨hp1, hp2, hp3, hp4⟩ := encoder_packed_of_len c
  refine ⟨fun h => ⟨encoder_packed_high_eq_zero h, ?_⟩, fun h => ⟨encoder_packed_high_eq_zero h, ?_⟩,
    fun h => ⟨encoder_packed_high_eq_zero h, ?_⟩, fun h => ?_⟩
  · rw [show p = encPacked1 c from hp1 h]; exact encPacked1_fields c
  · rw [show p = encPacked2 c from hp2 h]; exact encPacked2_fields c
  · rw [show p = encPacked3 c from hp3 h]; exact encPacked3_fields c
  · rw [show p = encPacked4 c from hp4 h]; exact encPacked4_fields c

/-! ## Requests that are refused, and the step that finds them (R70, R72) -/

theorem step_of_issue {s : State} {r : Request} {rest : List HostAction}
    (h : s.actions = .issue r :: rest) : step s = stepRequest r { s with actions := rest } := by
  rw [step, h]

theorem stepRequest_of_ok {r : Request} {i : Instr} (h : decodeRequest r = .ok i) (s : State) :
    stepRequest r s = exec i s := by
  rw [stepRequest, h]

theorem stepRequest_of_error {r : Request} {e : DecodeError} (h : decodeRequest r = .error e) (s : State) :
    stepRequest r s = .refused (refusalOf e) := by
  rw [stepRequest, h]

/-- Settles O1: identifier 3 is no operation's, so its transaction is RESERVED with any operand. -/
theorem identifiersNameOperations : Obligations.IdentifiersNameOperations := by
  refine ⟨fun b => ?_, fun c => ?_, fun p => ?_, fun s => rfl, fun s operand rest hs => ?_⟩
  · exact congrArg (Except.map Instr.size) (fitPort_toNat .sp b)
  · exact congrArg (Except.map Instr.encode) (fitPort_toNat .enc c)
  · exact congrArg (Except.map Instr.decode) (fitPort_toNat .dec p)
  · have hreq : decodeRequest (.transact 3 operand) = .ok .reserved := rfl
    rw [step_of_issue hs, stepRequest_of_ok hreq]
    rfl

/-- A literal that is too wide for its port stops every decoder of the port's words. -/
theorem map_fitPort_of_ge {α : Type} (ch : Channel) {w n : Nat} (f : BitVec w → α) (h : 2 ^ w ≤ n) :
    (fitPort ch w n).map f = .error (.operandTooWide ch) := by
  rw [fitPort_of_ge ch h]; rfl

theorem step_refused_of_too_wide {s : State} {r : Request} {rest : List HostAction} {ch : Channel}
    (hs : s.actions = .issue r :: rest) (hr : decodeRequest r = .error (.operandTooWide ch)) :
    step s = .refused (.operandTooWide ch) := by
  rw [step_of_issue hs, stepRequest_of_error hr]; rfl

/-- Settles O2: the transaction and the driven word of a channel are read through the same port. -/
theorem operandWiderThanPortIsRefused : Obligations.OperandWiderThanPortIsRefused := by
  intro s n rest
  refine ⟨fun hn hs => ?_, fun hn hs => ?_, fun hn hs => ?_⟩
  · obtain hs | hs := hs
    · exact step_refused_of_too_wide hs (map_fitPort_of_ge .sp Instr.size hn)
    · exact step_refused_of_too_wide hs (map_fitPort_of_ge .sp decodeSpWord hn)
  · obtain hs | hs := hs
    · exact step_refused_of_too_wide hs (map_fitPort_of_ge .enc Instr.encode hn)
    · exact step_refused_of_too_wide hs (map_fitPort_of_ge .enc decodeEncWord hn)
  · obtain hs | hs := hs
    · exact step_refused_of_too_wide hs (map_fitPort_of_ge .dec Instr.decode hn)
    · exact step_refused_of_too_wide hs (map_fitPort_of_ge .dec (decodeDecWord pDecHigh) hn)

/-! ## Spellings (R72, R73) and byte classes (R62) -/

/-- A name denotes the operation it is a spelling of: the operations share no spelling. -/
theorem ofSpelling_eq_some_iff (name : String) (o : Operation) :
    Operation.ofSpelling name = some o ↔ name ∈ o.spellings := by
  constructor
  · intro h
    simpa using List.find?_some h
  · have hall : ∀ o : Operation, ∀ name ∈ o.spellings, Operation.ofSpelling name = some o := by
      intro o
      cases o <;> decide
    exact hall o name

/-- Settles O3: the spellings written out. -/
theorem spellingsNameOperations : Obligations.SpellingsNameOperations := by
  intro name o
  rw [ofSpelling_eq_some_iff]
  cases o <;> simp [Operation.spellings]

theorem byteClass_eq_of_range (b : Byte) : byteClass b =
    if b.toNat ≤ 0x7F then .lead1 else if b.toNat ≤ 0xBF then .continuation
    else if b.toNat ≤ 0xDF then .lead2 else if b.toNat ≤ 0xEF then .lead3
    else if b.toNat ≤ 0xF7 then .lead4 else .malformed := by
  simp [byteClass, BitVec.le_def]

/-- Settles O12: each bit pattern is the range that the ladder of R62 gives the class. -/
theorem byteClassByBitPattern : Obligations.ByteClassByBitPattern := by
  intro b
  have hb : b.toNat < 2 ^ 8 := b.isLt
  simp only [byteClass_eq_of_range, Bits.extractLsb_eq_iff, BitVec.toNat_ofNat]
  split_ifs <;> simp only [true_iff, false_iff] <;> omega

end Sys2Proof.Machine

namespace Sys2Proof.Machine

/-! # Size Probe (spec/41_sizeprobe.md)

SIZE is one evaluation of channel SP, whose function is a table of ranges (R100) and of nibbles (R106). Rows
that never take one byte with two different forms may be tried in any order. The lead byte of an encoding is
the word of an SP form, so SIZE of it is the length (R108). -/

/-! ## The outputs of channel SP (R100, R107) -/

theorem errOfSize_eq_ite (n : SizeWord) : errOfSize n = if n = 0 then 1 else 0 := by
  simp only [errOfSize, beq_iff_eq]

/-- A size output shows success exactly when it is not 0. -/
theorem errOfSize_eq_zero_iff (n : SizeWord) : errOfSize n = 0 ↔ n ≠ 0 := by
  rw [errOfSize_eq_ite]
  split_ifs with h
  · exact iff_of_false (by decide) (not_not.mpr h)
  · exact iff_of_true rfl h

theorem sizeProbe_size_eq_of_range (b : Byte) : (sizeProbe b).size =
    if b.toNat < 0x80 then 1 else if b.toNat < 0xC0 then 0 else if b.toNat < 0xE0 then 2
      else if b.toNat < 0xF0 then 3 else if b.toNat < 0xF8 then 4 else 0 := by
  rw [sizeProbe_eq_of_range]
  split_ifs <;> rfl

/-- Settles O8: the channel's function by ranges, and the error of its size. -/
theorem sizeClassifiesLeadByte : Obligations.SizeClassifiesLeadByte := by
  intro b s
  exact ⟨_, rfl, rfl, State.frame_evalSp s b _, sizeProbe_size_eq_of_range b,
    errOfSize_eq_ite (sizeProbe b).size⟩

/-- Settles O11: the error output is a function of the size output, which tells 0 from every other size. -/
theorem sizeZeroExactlyOnInvalid : Obligations.SizeZeroExactlyOnInvalid := by
  intro b s t ht
  cases ht
  exact ⟨State.frame_evalSp s b _, sizeProbe_size_le b, (errOfSize_eq_one_iff _).symm,
    (errOfSize_eq_zero_iff _).symm⟩

/-! ## The SP forms (R101 to R105) -/

/-- An instruction for SIZE of a word whose size is `n` completes as SIZE of that word does. -/
theorem exists_exec_of_spOutOfSize {i : Instr} {b : Byte} {n : Nat} (hi : i.asTransaction = .size b)
    (hb : sizeProbe b = spOutOfSize n) (s : State) :
    ∃ t, exec i s = .next t ∧ exec (.size b) s = .next t ∧ t.spLead = some b ∧
      t.sample .sp = .size (sizePort n) (errOfSize (sizePort n)) ∧ s.Frame .sp t := by
  refine ⟨_, exec_of_asTransaction_eq_size hi s, rfl, rfl, ?_, State.frame_evalSp s b _⟩
  rw [State.evalSp_sample, hb]
  rfl

/-- Settles O9: each form is SIZE of its word, whose size is the form's. -/
theorem spFormsGiveTheirSizes : Obligations.SpFormsGiveTheirSizes := fun s =>
  ⟨fun x => exists_exec_of_spOutOfSize rfl (sizeProbe_sp4Word x) s,
    fun x => exists_exec_of_spOutOfSize rfl (sizeProbe_sp3Word x) s,
    fun x => exists_exec_of_spOutOfSize rfl (sizeProbe_sp2Word x) s,
    fun x => exists_exec_of_spOutOfSize rfl (sizeProbe_sp1Word x) s,
    fun x => exists_exec_of_spOutOfSize rfl (sizeProbe_spInvContWord x) s,
    fun x => exists_exec_of_spOutOfSize rfl (sizeProbe_spInvMalformedWord x) s⟩

/-! ## The order of the ladder (R106) -/

/-- Where the rows that take a word agree on its form, their order does not matter. -/
theorem firstForm_eq_of_perm {φ : Type} {w : Nat} (z : φ) {v : BitVec w} {rows rows' : List (FormRow φ w)}
    (hp : rows.Perm rows')
    (hagree : ∀ r₁ ∈ rows', ∀ r₂ ∈ rows', r₁.takes v = true → r₂.takes v = true → r₁.form = r₂.form) :
    firstForm z v rows = firstForm z v rows' := by
  obtain ⟨r₁, hr₁, h₁, hf₁⟩ | ⟨hnone₁, hf₁⟩ := firstForm_spec z v rows <;>
    obtain ⟨r₂, hr₂, h₂, hf₂⟩ | ⟨hnone₂, hf₂⟩ := firstForm_spec z v rows' <;> rw [hf₁, hf₂]
  · exact hagree r₁ (hp.mem_iff.mp hr₁) r₂ hr₂ h₁ h₂
  · cases h₁.symm.trans (hnone₂ r₁ (hp.mem_iff.mp hr₁))
  · cases h₂.symm.trans (hnone₁ r₂ (hp.mem_iff.mpr hr₂))

/-- Any two SP rows of different forms differ in a bit that both their masks read. -/
theorem spRows_form_eq_of_takes (b : Byte) : ∀ r₁ ∈ spRows, ∀ r₂ ∈ spRows,
    r₁.takes b = true → r₂.takes b = true → r₁.form = r₂.form := by
  have hrows : ∀ r₁ ∈ spRows, ∀ r₂ ∈ spRows,
      r₁.value &&& r₂.mask = r₂.value &&& r₁.mask → r₁.form = r₂.form := by decide
  exact fun r₁ hr₁ r₂ hr₂ h₁ h₂ => hrows r₁ hr₁ r₂ hr₂ (value_and_mask_eq_of_takes h₁ h₂)

/-- No byte passes two of the tests: their ranges are disjoint. -/
theorem count_sizeProbe_tests_le_one (b : Byte) :
    [b.extractLsb 7 3 == 0b11110#5, b.extractLsb 7 4 == 0b1110#4, b.extractLsb 7 5 == 0b110#3,
      b.extractLsb 7 7 == 0b0#1].count true ≤ 1 := by
  simp only [List.count_cons, List.count_nil, beq_true, beq_iff_eq, Bits.extractLsb_eq_iff,
    BitVec.toNat_ofNat]
  split_ifs <;> omega

theorem sizeProbe_size_eq_of_nibbles (b : Byte) : (sizeProbe b).size =
    if b.extractLsb 7 4 ≤ 0x7#4 then 1 else if b.extractLsb 7 4 ≤ 0xB#4 then 0
    else if b.extractLsb 7 4 ≤ 0xD#4 then 2 else if b.extractLsb 7 4 = 0xE#4 then 3
    else if b.extractLsb 3 0 ≤ 0x7#4 then 4 else 0 := by
  have hb : b.toNat < 2 ^ 8 := b.isLt
  simp only [sizeProbe_size_eq_of_range, BitVec.le_def, Bits.extractLsb_eq_iff, Bits.toNat_extractLsb_div,
    BitVec.toNat_ofNat]
  split_ifs <;> bv_omega

/-- Settles O10: no byte passes two tests, so the rows agree on its form in any order, and the ranges of the
sizes are runs of nibbles. -/
theorem sizeLadderOrderNeverMatters : Obligations.SizeLadderOrderNeverMatters :=
  ⟨count_sizeProbe_tests_le_one,
    fun _ b hp => firstForm_eq_of_perm .malformed hp (spRows_form_eq_of_takes b),
    sizeProbe_size_eq_of_nibbles⟩

/-! ## SIZE of the lead byte of an encoding (R108) -/

/-- The first byte of the Encoder's table is the word of the SP form of its length. -/
theorem sizeProbe_of_head_encoderBytes {c : CodeWord} {b : Byte} (h : (encoderBytes c)[0]? = some b) :
    sizeProbe b = spOutOfSize (encoderBytes c).length := by
  unfold encoderBytes at h ⊢
  split_ifs at h ⊢ with h1 <;> cases h
  · have hc : c.toNat ≤ 0x7F := h1
    have hlt : (c.extractLsb 7 0).toNat < 0x80 := by rw [Bits.toNat_extractLsb_div]; omega
    rw [sizeProbe_eq_of_range]
    exact congrArg spOutOfSize (if_pos hlt)
  · exact sizeProbe_sp2Word (c.extractLsb 10 6)
  · exact sizeProbe_sp3Word (c.extractLsb 15 12)
  · exact sizeProbe_sp4Word (c.extractLsb 20 18)

theorem one_le_encoder_len {c : CodeWord} (hc : c.toNat ≤ 0x10FFFF) : 1 ≤ (encoder c).len.toNat := by
  have hle : c ≤ 0x10FFFF := hc
  rw [encoder_len_eq_length]
  unfold encoderBytes
  split_ifs <;> simp

theorem sizeProbe_leadByteOf_encoder {c : CodeWord} (hc : c.toNat ≤ 0x10FFFF) :
    sizeProbe (leadByteOf (encoder c).packed (encoder c).len.toNat) = spOutOfSize (encoder c).len.toNat := by
  obtain ⟨-, hlen, hbyte, -⟩ := encodedBytesAreBigEndian c hc
  have hpos := one_le_encoder_len hc
  rw [hlen] at hpos ⊢
  exact sizeProbe_of_head_encoderBytes (hbyte 1 le_rfl hpos)

/-- Settles O34: ENCODE leaves a length that is not 0, and the lead byte has that size. -/
theorem sizeOfLeadByteIsEncodedLength : Obligations.SizeOfLeadByteIsEncodedLength := by
  intro c s hc
  have hpos := one_le_encoder_len hc
  have hne : (encoder c).len ≠ 0 := fun h => by simp [h] at hpos
  refine ⟨_, _, rfl, hpos, rfl, ?_⟩
  rw [State.evalSp_sample, State.evalEnc_encPacked, State.evalEnc_encLen, sizeProbe_leadByteOf_encoder hc]
  have hport : sizePort (encoder c).len.toNat = (encoder c).len := BitVec.ofNat_toNat _ _
  rw [spOutOfSize, hport, (errOfSize_eq_zero_iff _).mpr hne]

end Sys2Proof.Machine

namespace Sys2Proof.Machine

/-! # Encoder (spec/42_encoder.md)

ENCODE is one evaluation of channel ENC, whose function is a ladder of ranges (R120, R126). The packed value
of a range is its bytes side by side (R121 to R124), and the Decoder reads every code point back from it
(R130), so distinct code points have distinct packed values. -/

/-! ## The packed values as concatenations of bytes (R121 to R124) -/

/-- A byte on the right of a concatenation is a byte at the end of the sequence it packs. -/
theorem setWidth_append_byte {w : Nat} {x : BitVec w} {bytes : List Byte}
    (hx : x.setWidth 32 = packBytes bytes) (b : Byte) :
    (x ++ b).setWidth 32 = packBytes (bytes ++ [b]) := by
  have hn : x.toNat % 2 ^ 32 = (packBytes bytes).toNat := by rw [← hx, BitVec.toNat_setWidth]
  apply BitVec.eq_of_toNat_eq
  rw [BitVec.toNat_setWidth, Bits.toNat_append_add, packBytes_concat_toNat, ← hn]
  omega

theorem setWidth_byte (b : Byte) : b.setWidth 32 = packBytes [b] := by
  simp [packBytes]

theorem encPacked1_eq_setWidth {c : CodeWord} (hc : c.toNat ≤ 0x7F) : encPacked1 c = c.setWidth 32 := by
  apply BitVec.eq_of_toNat_eq
  rw [encPacked1_toNat, BitVec.toNat_setWidth]
  omega

theorem encPacked2_eq_append (c : CodeWord) : encPacked2 c =
    (leadByte2 (c.extractLsb 10 6) ++ contByte (c.extractLsb 5 0)).setWidth 32 := by
  rw [encPacked2_eq_packBytes]
  exact (setWidth_append_byte (setWidth_byte _) _).symm

theorem encPacked3_eq_append (c : CodeWord) : encPacked3 c =
    (leadByte3 (c.extractLsb 15 12) ++ contByte (c.extractLsb 11 6)
      ++ contByte (c.extractLsb 5 0)).setWidth 32 := by
  rw [encPacked3_eq_packBytes]
  exact (setWidth_append_byte (setWidth_append_byte (setWidth_byte _) _) _).symm

theorem encPacked4_eq_append (c : CodeWord) : encPacked4 c =
    (leadByte4 (c.extractLsb 20 18) ++ contByte (c.extractLsb 17 12) ++ contByte (c.extractLsb 11 6)
      ++ contByte (c.extractLsb 5 0)).setWidth 32 := by
  rw [encPacked4_eq_packBytes]
  exact (setWidth_append_byte (setWidth_append_byte (setWidth_append_byte (setWidth_byte _) _) _) _).symm

/-! ## ENCODE and the ENC forms (R120 to R128) -/

theorem sample_evalEnc_of_encOutOf {c : CodeWord} {packed : PackedWord} {n : Nat}
    (hc : encoder c = encOutOf packed n) (s : State) :
    (s.evalEnc c (encoder c)).sample .enc = .encode packed (sizePort n) (errOfSize (sizePort n)) := by
  rw [hc]; rfl

/-- Settles O13: the range of the value names its form, whose packed value is the concatenation. -/
theorem encodeByMagnitude : Obligations.EncodeByMagnitude := by
  intro c s
  refine ⟨_, rfl, rfl, State.frame_evalEnc s c _, fun h => ?_, fun ⟨hlo, hhi⟩ => ?_, fun ⟨hlo, hhi⟩ => ?_,
    fun ⟨hlo, hhi⟩ => ?_, fun h => ?_⟩
  · rw [← encPacked1_eq_setWidth h]
    exact sample_evalEnc_of_encOutOf (encoder_one h) s
  · refine (sample_evalEnc_of_encOutOf (encoder_two hlo hhi) s).trans ?_
    rw [encPacked2_eq_append]; rfl
  · refine (sample_evalEnc_of_encOutOf (encoder_three hlo hhi) s).trans ?_
    rw [encPacked3_eq_append]; rfl
  · refine (sample_evalEnc_of_encOutOf (encoder_four hlo hhi) s).trans ?_
    rw [encPacked4_eq_append]; rfl
  · exact sample_evalEnc_of_encOutOf (encoder_fail h) s

/-- An instruction for ENCODE of a word whose outputs are those of a form completes with them. -/
theorem exists_exec_of_encOutOf {i : Instr} {c : CodeWord} {packed : PackedWord} {n k : Nat}
    (hi : i.asTransaction = .encode c) (hc : encoder c = encOutOf packed n) (hk : packed.toNat = k)
    (s : State) : ∃ t, exec i s = .next t ∧ t.encCp = some c ∧ s.Frame .enc t ∧ t.encPacked.toNat = k ∧
      t.encLen = sizePort n ∧ t.encErr = errOfSize (sizePort n) := by
  refine ⟨_, exec_of_asTransaction_eq_encode hi s, rfl, State.frame_evalEnc s c _, ?_⟩
  rw [hc]
  exact ⟨hk, rfl, rfl⟩

theorem encPacked1_enc1Word_toNat (c : BitVec 7) : (encPacked1 (enc1Word c)).toNat = c.toNat := by
  rw [encPacked1_toNat, enc1Word_toNat]; omega

theorem encPacked2_enc2Word_toNat (c : BitVec 11) : (encPacked2 (enc2Word c)).toNat =
    (0xC0 + c.toNat / 64) * 256 + (0x80 + c.toNat % 64) := by
  rw [encPacked2_toNat, enc2Word_toNat]; omega

theorem encPacked3_enc3Word_toNat (c : BitVec 16) : (encPacked3 (enc3Word c)).toNat =
    (0xE0 + c.toNat / 4096) * 65536 + (0x80 + c.toNat / 64 % 64) * 256 + (0x80 + c.toNat % 64) := by
  rw [encPacked3_toNat, enc3Word_toNat]; omega

theorem encPacked4_enc4LowWord_toNat (c : BitVec 20) : (encPacked4 (enc4LowWord c)).toNat =
    (0xF0 + c.toNat / 262144) * 16777216 + (0x80 + c.toNat / 4096 % 64) * 65536
      + (0x80 + c.toNat / 64 % 64) * 256 + (0x80 + c.toNat % 64) := by
  rw [encPacked4_toNat, enc4LowWord_toNat]; omega

/-- The code points from 0x100000 on all have the lead byte 0xF4. -/
theorem encPacked4_enc4HighWord_toNat (c : BitVec 16) : (encPacked4 (enc4HighWord c)).toNat =
    0xF4 * 16777216 + (0x80 + c.toNat / 4096) * 65536 + (0x80 + c.toNat / 64 % 64) * 256
      + (0x80 + c.toNat % 64) := by
  rw [encPacked4_toNat, enc4HighWord_toNat]; omega

theorem enc4HighWord_eq_ofNat (c : BitVec 16) : enc4HighWord c = BitVec.ofNat 64 (0x100000 + c.toNat) := by
  rw [← enc4HighWord_toNat, BitVec.ofNat_toNat, BitVec.setWidth_eq]

/-- Settles O14: each form is ENCODE of its word, which lies in the form's range. -/
theorem encFormsPackTheirBytes : Obligations.EncFormsPackTheirBytes := by
  intro s
  refine ⟨fun c => ?_, fun c hc => ?_, fun c hc => ?_, fun c hc => ?_, fun c => ?_, fun c hc => ?_⟩
  · exact exists_exec_of_encOutOf rfl (encoder_enc1Word c) (encPacked1_enc1Word_toNat c) s
  · exact exists_exec_of_encOutOf rfl (encoder_enc2Word hc) (encPacked2_enc2Word_toNat c) s
  · exact exists_exec_of_encOutOf rfl (encoder_enc3Word hc) (encPacked3_enc3Word_toNat c) s
  · exact exists_exec_of_encOutOf rfl (encoder_enc4LowWord hc) (encPacked4_enc4LowWord_toNat c) s
  · rw [← enc4HighWord_eq_ofNat]
    exact exists_exec_of_encOutOf rfl (encoder_enc4HighWord c) (encPacked4_enc4HighWord_toNat c) s
  · exact ⟨_, exec_of_asTransaction_eq_encode rfl s, rfl, State.frame_evalEnc s c _,
      sample_evalEnc_of_encOutOf (encoder_fail hc) s⟩

/-! ## The length and the error (R129, R130) -/

theorem encoder_len_eq_of_range (c : CodeWord) : (encoder c).len =
    if c.toNat ≤ 0x7F then 1 else if c.toNat ≤ 0x7FF then 2 else if c.toNat ≤ 0xFFFF then 3
      else if c.toNat ≤ 0x10FFFF then 4 else 0 := by
  simp only [encoder, BitVec.le_def, BitVec.reduceToNat]
  split_ifs <;> rfl

/-- The error output is a function of the length output. -/
theorem encoder_err_eq_errOfSize (c : CodeWord) : (encoder c).err = errOfSize (encoder c).len := by
  obtain h | h | h | h | h := encoder_cases c <;> rw [h] <;> rfl

theorem encoder_err_eq_one_iff (c : CodeWord) : (encoder c).err = 1 ↔ 0x10FFFF < c.toNat := by
  rw [encoder_err_eq_errOfSize, errOfSize_eq_one_iff, encoder_len_eq_of_range]
  split_ifs <;> simp <;> omega

/-- Settles O20: the error is the length 0, which only the last range has; the surrogates are in the range of
the 3-byte form. -/
theorem encoderRejectsOnlyAboveRange : Obligations.EncoderRejectsOnlyAboveRange := by
  refine ⟨encoder_err_eq_one_iff, fun c hlo hhi => ?_⟩
  have hp := encPacked3_toNat c
  rw [encoder_three (by omega) (by omega)]
  refine ⟨rfl, rfl, hp.trans ?_⟩
  omega

/-- The length is the shortest whose payload bits hold the code point. -/
theorem encoder_len_iff_payload {c : CodeWord} (hc : c.toNat ≤ 0x10FFFF) :
    ((encoder c).len = 1 ↔ c.toNat < 2 ^ 7) ∧
    ((encoder c).len = 2 ↔ 2 ^ 7 ≤ c.toNat ∧ c.toNat < 2 ^ 11) ∧
    ((encoder c).len = 3 ↔ 2 ^ 11 ≤ c.toNat ∧ c.toNat < 2 ^ 16) ∧
    ((encoder c).len = 4 ↔ 2 ^ 16 ≤ c.toNat) := by
  rw [encoder_len_eq_of_range]
  split_ifs <;> simp <;> omega

/-! ## The Decoder reads every code point back (R130)

Each form's packed value passes the test of its own length, and no test before it, under both settings, and
for every value its payload bits hold, so also for values the Encoder gives a shorter form (R142). -/

theorem decTest4_eq_false_of_lt {p : PackedWord} (hp : p.toNat < 2 ^ 24) : decTest4 p = false := by
  rw [← Bool.not_eq_true, decTest4_iff]; omega

theorem decTest3_eq_false_of_lt (h : DecHigh) {p : PackedWord} (hp : p.toNat < 2 ^ 16) :
    decTest3 h p = false := by
  rw [← Bool.not_eq_true, decTest3_iff]; omega

theorem decTest2_eq_false_of_lt (h : DecHigh) {p : PackedWord} (hp : p.toNat < 2 ^ 8) :
    decTest2 h p = false := by
  rw [← Bool.not_eq_true, decTest2_iff]; omega

theorem decCp1_encPacked1 {c : CodeWord} (hc : c.toNat < 2 ^ 7) : decCp1 (encPacked1 c) = c := by
  apply BitVec.eq_of_toNat_eq
  rw [decCp1_toNat, encPacked1_toNat]
  omega

theorem decCp2_encPacked2 {c : CodeWord} (hc : c.toNat < 2 ^ 11) : decCp2 (encPacked2 c) = c := by
  obtain ⟨-, hlead, -, hcont⟩ := encPacked2_fields c
  apply BitVec.eq_of_toNat_eq
  rw [decCp2, hlead, hcont]
  simp only [BitVec.toNat_setWidth, Bits.toNat_append_add, Bits.toNat_extractLsb_div]
  omega

theorem decCp3_encPacked3 {c : CodeWord} (hc : c.toNat < 2 ^ 16) : decCp3 (encPacked3 c) = c := by
  obtain ⟨-, hlead, -, hcont2, -, hcont3⟩ := encPacked3_fields c
  apply BitVec.eq_of_toNat_eq
  rw [decCp3, hlead, hcont2, hcont3]
  simp only [BitVec.toNat_setWidth, Bits.toNat_append_add, Bits.toNat_extractLsb_div]
  omega

theorem decCp4_encPacked4 {c : CodeWord} (hc : c.toNat < 2 ^ 21) : decCp4 (encPacked4 c) = c := by
  obtain ⟨-, hlead, -, hcont2, -, hcont3, -, hcont4⟩ := encPacked4_fields c
  apply BitVec.eq_of_toNat_eq
  rw [decCp4, hlead, hcont2, hcont3, hcont4]
  simp only [BitVec.toNat_setWidth, Bits.toNat_append_add, Bits.toNat_extractLsb_div]
  omega

theorem decoder_encPacked1 (h : DecHigh) {c : CodeWord} (hc : c.toNat < 2 ^ 7) :
    decoder h (encPacked1 c) = decSuccess c := by
  have hp : (encPacked1 c).toNat < 2 ^ 7 := by rw [encPacked1_toNat]; omega
  have h1 : decTest1 h (encPacked1 c) = true := by rw [decTest1_iff]; omega
  rw [decoder_one (decTest4_eq_false_of_lt (by omega)) (decTest3_eq_false_of_lt h (by omega))
    (decTest2_eq_false_of_lt h (by omega)) h1, decCp1_encPacked1 hc]

theorem decoder_encPacked2 (h : DecHigh) {c : CodeWord} (hc : c.toNat < 2 ^ 11) :
    decoder h (encPacked2 c) = decSuccess c := by
  have hp : (encPacked2 c).toNat < 2 ^ 16 := by rw [encPacked2_toNat]; omega
  obtain ⟨hmark, -⟩ := encPacked2_fields c
  have h2 : decTest2 h (encPacked2 c) = true := by
    rw [decTest2, hmark, extractLsb_eq_zero_of_lt 31 hp]; simp
  rw [decoder_two (decTest4_eq_false_of_lt (by omega)) (decTest3_eq_false_of_lt h hp) h2,
    decCp2_encPacked2 hc]

theorem decoder_encPacked3 (h : DecHigh) {c : CodeWord} (hc : c.toNat < 2 ^ 16) :
    decoder h (encPacked3 c) = decSuccess c := by
  have hp : (encPacked3 c).toNat < 2 ^ 24 := by rw [encPacked3_toNat]; omega
  obtain ⟨hmark, -⟩ := encPacked3_fields c
  have h3 : decTest3 h (encPacked3 c) = true := by
    rw [decTest3, hmark, extractLsb_eq_zero_of_lt 31 hp]; simp
  rw [decoder_three (decTest4_eq_false_of_lt hp) h3, decCp3_encPacked3 hc]

theorem decoder_encPacked4 (h : DecHigh) {c : CodeWord} (hc : c.toNat < 2 ^ 21) :
    decoder h (encPacked4 c) = decSuccess c := by
  obtain ⟨hmark, -⟩ := encPacked4_fields c
  have h4 : decTest4 (encPacked4 c) = true := by rw [decTest4, hmark]; rfl
  rw [decoder_four h4, decCp4_encPacked4 hc]

theorem decoder_encoder_packed (h : DecHigh) {c : CodeWord} (hc : c.toNat ≤ 0x10FFFF) :
    decoder h (encoder c).packed = decSuccess c := by
  obtain h1 | ⟨hlo, hhi⟩ | ⟨hlo, hhi⟩ | hlo : c.toNat ≤ 0x7F ∨ (0x80 ≤ c.toNat ∧ c.toNat ≤ 0x7FF) ∨
      (0x800 ≤ c.toNat ∧ c.toNat ≤ 0xFFFF) ∨ 0x10000 ≤ c.toNat := by omega
  · rw [encoder_one h1]; exact decoder_encPacked1 h (by omega)
  · rw [encoder_two hlo hhi]; exact decoder_encPacked2 h (by omega)
  · rw [encoder_three hlo hhi]; exact decoder_encPacked3 h (by omega)
  · rw [encoder_four hlo hc]; exact decoder_encPacked4 h (by omega)

/-! ## The properties of the result (R130) -/

theorem decoder_encoder_packed_cp {c : CodeWord} (hc : c.toNat ≤ 0x10FFFF) :
    (decoder pDecHigh (encoder c).packed).cp = c := by
  rw [decoder_encoder_packed pDecHigh hc]; rfl

theorem encoder_packed_inj {c d : CodeWord} (hc : c.toNat ≤ 0x10FFFF) (hd : d.toNat ≤ 0x10FFFF)
    (h : (encoder c).packed = (encoder d).packed) : c = d := by
  rw [← decoder_encoder_packed_cp hc, h, decoder_encoder_packed_cp hd]

/-- Among code points only U+0000 can pack to 0, as it does; the failure's packed value is 0 too. -/
theorem encoder_packed_eq_zero_iff (c : CodeWord) :
    (encoder c).packed = 0 ↔ c = 0 ∨ 0x10FFFF < c.toNat := by
  have hzero : (encoder 0).packed = 0 := rfl
  constructor
  · intro h
    obtain hc | hc := Nat.lt_or_ge 0x10FFFF c.toNat
    · exact .inr hc
    · exact .inl (encoder_packed_inj hc (by decide) (h.trans hzero.symm))
  · rintro (rfl | hc)
    · exact hzero
    · rw [encoder_fail hc]; rfl

theorem sizeProbe_leadByteOf_encoder_size {c : CodeWord} (hc : c.toNat ≤ 0x10FFFF) :
    (sizeProbe (leadByteOf (encoder c).packed (encoder c).len.toNat)).size = (encoder c).len := by
  rw [sizeProbe_leadByteOf_encoder hc]
  exact BitVec.ofNat_toNat _ _

/-- Settles O21: the length by ranges; the other properties from the Decoder reading the code point back and
from the lead byte being a word of the SP form of the length. -/
theorem encoderResultProperties : Obligations.EncoderResultProperties := by
  refine ⟨fun c hc => encoder_len_iff_payload hc, fun c d hc hd => encoder_packed_inj hc hd, fun c => ?_,
    fun c hc => ⟨sizeProbe_leadByteOf_encoder_size hc, decoder_encoder_packed_cp hc⟩⟩
  have hlen1 : c = 0 → (encoder c).len = 1 := by rintro rfl; rfl
  have hlen0 : 0x10FFFF < c.toNat → (encoder c).len = 0 := fun hc => by rw [encoder_fail hc]; rfl
  rw [encoder_packed_eq_zero_iff, and_iff_left_of_imp hlen1, and_iff_left_of_imp hlen0]

end Sys2Proof.Machine

namespace Sys2Proof.Machine

/-! # Decoder (spec/43_decoder.md)

The outputs of channel DEC are those of the form the word selects (R140, R143 to R147). Under IGNORE the
selection tests the lead bits of each length; REQUIRE_ZERO keeps it for the words that are clean for the
selected form and for no others (R148). The Encoder's image is where the Decoder and the Encoder undo each
other (R151, R152). -/

/-! ## Laws between the Encoder and the Decoder (R151, R152) -/

theorem encoder_err_eq_zero_iff (c : CodeWord) : (encoder c).err = 0 ↔ c.toNat ≤ 0x10FFFF := by
  rw [encoder_err_eq_errOfSize, errOfSize_eq_zero_iff, Ne, ← errOfSize_eq_one_iff,
    ← encoder_err_eq_errOfSize, encoder_err_eq_one_iff, not_lt]

/-- Settles O32: the Decoder reads every code point back, and ENCODE leaves the packed value on its port. -/
theorem decodeUndoesEncode : Obligations.DecodeUndoesEncode := by
  refine ⟨fun h c hc => decoder_encoder_packed h hc, fun c s hc => ⟨_, _, rfl, rfl, ?_⟩⟩
  rw [State.evalDec_sample, State.evalEnc_encPacked, decoder_encoder_packed pDecHigh hc]
  rfl

/-- An input that its decoded value encodes back to is an Encoder output, and the Decoder reads the code point
of an Encoder output back. -/
theorem encoder_decoder_cp_eq_iff (h : DecHigh) (x : PackedWord) :
    ((encoder (decoder h x).cp).packed = x ∧ (encoder (decoder h x).cp).err = 0) ↔
      ∃ c : CodeWord, c.toNat ≤ 0x10FFFF ∧ (encoder c).packed = x := by
  constructor
  · rintro ⟨hback, herr⟩
    exact ⟨(decoder h x).cp, (encoder_err_eq_zero_iff _).mp herr, hback⟩
  · rintro ⟨c, hc, rfl⟩
    rw [decoder_encoder_packed h hc]
    exact ⟨rfl, (encoder_err_eq_zero_iff c).mpr hc⟩

/-- A fact about both settings of `P_DEC_HIGH`. -/
theorem forall_decHigh {P : DecHigh → Prop} (hi : P .ignore) (hz : P .requireZero) (h : DecHigh) :
    P h := by
  cases h with
  | ignore => exact hi
  | requireZero => exact hz

/-- Settles O33: the law above; the rule's words, an overlong form, a continuation byte without its top bits, a
value above 0x10FFFF and a word that is not clean, are evaluated. -/
theorem encodeUndoesDecodeExactlyOnImage : Obligations.EncodeUndoesDecodeExactlyOnImage :=
  ⟨fun h x _ => encoder_decoder_cp_eq_iff h x, forall_decHigh rfl rfl, rfl,
    forall_decHigh rfl rfl, rfl, forall_decHigh rfl rfl, rfl, rfl, rfl⟩

/-! ## The outputs by the selected form (R140, R147, R153) -/

@[simp] theorem decSuccess_err (cp : CodeWord) : (decSuccess cp).err = 0 := rfl
@[simp] theorem decFailure_err : decFailure.err = 1 := rfl

/-- The outputs of a DEC form on the word that selects it (R143 to R147). -/
def decFormOutputs (p : PackedWord) : DecForm → DecOut
  | .four => decSuccess (decCp4 p)
  | .three => decSuccess (decCp3 p)
  | .two => decSuccess (decCp2 p)
  | .one => decSuccess (decCp1 p)
  | .invalid => decFailure

/-- The ladder of R140 and the rows of R65 stop at the same form. -/
theorem decoder_eq_decFormOutputs (h : DecHigh) (p : PackedWord) :
    decoder h p = decFormOutputs p (selectDec h p) := by
  rw [selectDec_eq_of_tests, decoder]
  split_ifs <;> rfl

/-- Settles O22: the outputs of the form that the rows of the setting select. -/
theorem decoderByPriorityUnderBothSettings : Obligations.DecoderByPriorityUnderBothSettings := by
  intro p
  constructor <;> rw [decoder_eq_decFormOutputs]
  · simp only [selectDec, decRows, firstForm, FormRow.takes, beq_iff_eq]
    split_ifs <;> rfl
  · simp only [selectDec, decRows, firstForm, FormRow.takes, beq_iff_eq]
    split_ifs <;> rfl

/-- Failure is the form DEC.INV. -/
theorem decoder_err_eq_one_iff (h : DecHigh) (p : PackedWord) :
    (decoder h p).err = 1 ↔ selectDec h p = .invalid := by
  rw [decoder_eq_decFormOutputs]
  cases selectDec h p <;> simp [decFormOutputs]

/-- Settles O31: the listed words are evaluated under each setting; failure is DEC.INV. -/
theorem zeroResultIsNotFailure : Obligations.ZeroResultIsNotFailure := by
  refine ⟨fun p hp => ?_, rfl, decoder_err_eq_one_iff⟩
  simp only [List.mem_cons, List.not_mem_nil, or_false] at hp
  obtain rfl | rfl | rfl | rfl | rfl | rfl := hp <;> exact forall_decHigh rfl rfl

/-! ## The ladder under IGNORE as numbers (R140, R147) -/

theorem decoder_ignore_eq_of_fields (p : PackedWord) : decoder .ignore p =
    if p.toNat / 2 ^ 27 = 0b11110 then decSuccess (decCp4 p)
    else if p.toNat / 2 ^ 20 % 16 = 0b1110 then decSuccess (decCp3 p)
    else if p.toNat / 2 ^ 13 % 8 = 0b110 then decSuccess (decCp2 p)
    else if p.toNat / 2 ^ 7 % 2 = 0 then decSuccess (decCp1 p) else decFailure := by
  have h4 : decTest4 p = true ↔ p.toNat / 2 ^ 27 = 0b11110 := by rw [decTest4_iff]; omega
  simp only [decoder, h4, decTest3_iff, decTest2_iff, decTest1_iff, true_or, and_true, Nat.reducePow]

/-- Settles O23: DECODE is one evaluation of channel DEC, whose function under IGNORE is the ladder of
numbers. -/
theorem decodeUsesTheIgnoreSetting : Obligations.DecodeUsesTheIgnoreSetting := by
  refine ⟨rfl, fun p s => ⟨_, rfl, rfl, State.frame_evalDec s p _, ?_⟩⟩
  rw [State.evalDec_decErr, State.evalDec_decCp, pDecHigh, decoder_ignore_eq_of_fields]
  refine ⟨fun h4 => ?_, fun h4 h3 => ?_, fun h4 h3 h2 => ?_, fun h4 h3 h2 h1 => ?_, fun h4 h3 h2 h1 => ?_⟩
  · rw [if_pos h4]
    exact ⟨rfl, decCp4_toNat p⟩
  · rw [if_neg h4, if_pos h3]
    exact ⟨rfl, decCp3_toNat p⟩
  · rw [if_neg h4, if_neg h3, if_pos h2]
    exact ⟨rfl, decCp2_toNat p⟩
  · rw [if_neg h4, if_neg h3, if_neg h2, if_pos h1]
    exact ⟨rfl, decCp1_toNat p⟩
  · rw [if_neg h4, if_neg h3, if_neg h2, if_neg (by omega)]
    exact ⟨rfl, rfl⟩

/-- Settles O28: the error is the last rung of the ladder, and only DEC.INV has it, with the value 0. -/
theorem decodeInvalidExactlyWhenNoFormMatches : Obligations.DecodeInvalidExactlyWhenNoFormMatches := by
  refine fun p => ⟨?_, fun h herr => ?_⟩
  · rw [decoder_ignore_eq_of_fields]
    split_ifs with h4 h3 h2 h1
    · exact iff_of_false (by simp) fun ⟨n4, _, _, _⟩ => n4 h4
    · exact iff_of_false (by simp) fun ⟨_, n3, _, _⟩ => n3 h3
    · exact iff_of_false (by simp) fun ⟨_, _, n2, _⟩ => n2 h2
    · exact iff_of_false (by simp) fun ⟨_, _, _, n1⟩ => by omega
    · exact iff_of_true rfl ⟨h4, h3, h2, by omega⟩
  · rw [decoder_eq_decFormOutputs, (decoder_err_eq_one_iff h p).mp herr]
    rfl

/-! ## What the payload fields hold (R141, R142, R149) -/

/-- Settles O26: each form stops the ladder whatever its continuation bytes, and its code point is a number of
their low 6 bits. -/
theorem continuationPrefixIsNeverRead : Obligations.ContinuationPrefixIsNeverRead := by
  intro h c2 c3 c4 d2 d3 d4 h2 h3 h4
  refine ⟨fun l => ?_, fun high l hwf => ?_, fun high l hwf => ?_⟩
  · rw [decoder_four (decTest4_dec4Word l c2 c3 c4), decoder_four (decTest4_dec4Word l d2 d3 d4)]
    refine congrArg decSuccess (BitVec.eq_of_toNat_eq ?_)
    rw [decCp4_dec4Word_toNat, decCp4_dec4Word_toNat, h2, h3, h4]
  · have hwf' : Instr.wellFormed h (.dec3 high l d3 d4) = true := hwf
    rw [decoder_dec3Word hwf, decoder_dec3Word hwf']
    refine congrArg decSuccess (BitVec.eq_of_toNat_eq ?_)
    rw [decCp3_dec3Word_toNat, decCp3_dec3Word_toNat, h3, h4]
  · have hwf' : Instr.wellFormed h (.dec2 high l d4) = true := hwf
    rw [decoder_dec2Word hwf, decoder_dec2Word hwf']
    refine congrArg decSuccess (BitVec.eq_of_toNat_eq ?_)
    rw [decCp2_dec2Word_toNat, decCp2_dec2Word_toNat, h4]

/-- Settles O27: the sequences are the Encoder's packings, read back for every value their payload holds. -/
theorem overlongAndSurrogateAreDecoded : Obligations.OverlongAndSurrogateAreDecoded := by
  intro h c
  rw [← encPacked2_eq_packBytes, ← encPacked3_eq_packBytes, ← encPacked4_eq_packBytes]
  exact ⟨decoder_encPacked2 h, decoder_encPacked3 h, decoder_encPacked4 h⟩

theorem selectDec_encPacked4 (h : DecHigh) (c : CodeWord) : selectDec h (encPacked4 c) = .four := by
  obtain ⟨hmark, -⟩ := encPacked4_fields c
  rw [selectDec_eq_of_tests, decTest4, hmark]
  rfl

/-- Settles O30: the bounds are the widths of the forms' fields; the 4-byte sequence of a value of 21 bits is a
word of DEC.4. -/
theorem decodedValueRange : Obligations.DecodedValueRange := by
  refine ⟨fun h p => ⟨Nat.le_of_lt_succ (decoder_cp_lt h p), ?_⟩, fun h v _ hv =>
    ⟨encPacked4 v, selectDec_encPacked4 h v, decoder_encPacked4 h (Nat.lt_succ_of_le hv)⟩⟩
  rw [decoder_eq_decFormOutputs]
  refine ⟨fun hf => ?_, fun hf => ?_, fun hf => ?_⟩ <;> rw [hf]
  · exact toNat_setWidth_lt 64 (p.extractLsb 19 16 ++ p.extractLsb 13 8 ++ p.extractLsb 5 0)
  · exact toNat_setWidth_lt 64 (p.extractLsb 12 8 ++ p.extractLsb 5 0)
  · exact toNat_setWidth_lt 64 (p.extractLsb 6 0)

/-! ## The REQUIRE_ZERO selection from the IGNORE selection (R148) -/

theorem clean_iff (n : Nat) (p : PackedWord) : clean n p = true ↔ p.toNat < 2 ^ (8 * n) := by
  rw [clean, beq_iff_eq, ← BitVec.toNat_inj, BitVec.toNat_ushiftRight, Nat.shiftRight_eq_div_pow]
  exact Nat.div_eq_zero_iff_lt (Nat.two_pow_pos _)

/-- A word that is not clean for a form is not clean for a shorter one. -/
theorem clean_eq_false_of_le {m n : Nat} {p : PackedWord} (hmn : m ≤ n) (h : clean n p = false) :
    clean m p = false := by
  rw [← Bool.not_eq_true, clean_iff, not_lt] at h ⊢
  exact (Nat.pow_le_pow_right (by decide) (Nat.mul_le_mul_left 8 hmn)).trans h

/-- What REQUIRE_ZERO adds to the test of a form is that the word is clean for it. -/
theorem decTests_requireZero (p : PackedWord) :
    decTest3 .requireZero p = (decTest3 .ignore p && clean 3 p) ∧
    decTest2 .requireZero p = (decTest2 .ignore p && clean 2 p) ∧
    decTest1 .requireZero p = (decTest1 .ignore p && clean 1 p) := by
  refine ⟨Bool.eq_iff_iff.mpr ?_, Bool.eq_iff_iff.mpr ?_, Bool.eq_iff_iff.mpr ?_⟩ <;>
    simp only [Bool.and_eq_true, decTest3_iff, decTest2_iff, decTest1_iff, clean_iff, reduceCtorEq,
      false_or, true_or, and_true] <;>
    omega

/-- REQUIRE_ZERO keeps the IGNORE form of a word that is clean for it. A word that is not clean for its form is
not clean for a shorter one, so no later test holds. -/
theorem selectDec_requireZero_eq (p : PackedWord) : selectDec .requireZero p =
    if (decFormLength (selectDec .ignore p)).any (clean · p) = true then selectDec .ignore p
    else .invalid := by
  obtain ⟨t3, t2, t1⟩ := decTests_requireZero p
  have hc4 : clean 4 p = true := (clean_iff 4 p).mpr p.isLt
  rw [selectDec_eq_of_tests, selectDec_eq_of_tests, t3, t2, t1]
  by_cases h4 : decTest4 p = true
  · simp [h4, hc4, decFormLength]
  by_cases h3 : decTest3 .ignore p = true
  · cases hc3 : clean 3 p with
    | true => simp [h4, h3, decFormLength, hc3]
    | false =>
      have hc2 : clean 2 p = false := clean_eq_false_of_le (by decide) hc3
      have hc1 : clean 1 p = false := clean_eq_false_of_le (by decide) hc3
      simp [h4, h3, decFormLength, hc3, hc2, hc1]
  by_cases h2 : decTest2 .ignore p = true
  · cases hc2 : clean 2 p with
    | true => simp [h4, h3, h2, decFormLength, hc2]
    | false =>
      have hc1 : clean 1 p = false := clean_eq_false_of_le (by decide) hc2
      simp [h4, h3, h2, decFormLength, hc2, hc1]
  by_cases h1 : decTest1 .ignore p = true <;> simp [h4, h3, h2, h1, decFormLength]

/-- Settles O29: the outputs follow the selected form, which REQUIRE_ZERO keeps exactly on clean words. -/
theorem settingsAgreeExactlyOnCleanInputs : Obligations.SettingsAgreeExactlyOnCleanInputs := by
  intro p
  have hinv : selectDec .requireZero p = .invalid → decoder .requireZero p = ⟨0, 1⟩ := fun h => by
    rw [decoder_eq_decFormOutputs, h]; rfl
  refine ⟨fun n hn hclean => ?_, fun n hn hclean => ?_, fun hignore => ?_⟩
  · have hsel : selectDec .requireZero p = selectDec .ignore p := by
      rw [selectDec_requireZero_eq, hn]; exact if_pos hclean
    exact ⟨hsel, by rw [decoder_eq_decFormOutputs, decoder_eq_decFormOutputs, hsel]⟩
  · have hsel : selectDec .requireZero p = .invalid := by
      rw [selectDec_requireZero_eq, hn]; exact if_neg (by simp [hclean])
    exact ⟨hsel, hinv hsel⟩
  · have hsel : selectDec .requireZero p = .invalid := by
      rw [selectDec_requireZero_eq, hignore, ite_self]
    exact ⟨hsel, hinv hsel⟩

end Sys2Proof.Machine

namespace Sys2Proof.Machine

/-! # Errors (spec/60_exceptions.md)

No error stops an instruction (R200). A channel reports its one error kind exactly when its error output is 1
(R203), which its function sets on its last resort alone (R201, R202), and each channel follows only its own
input (R213). -/

/-! ## The instruction that stops (R200, R70) -/

theorem channel_eq_none_iff (i : Instr) : i.channel = none ↔ i = .reserved := by
  cases i <;> simp [Instr.channel]

/-- Settles O38: an instruction evaluates a word of its channel in every state, or it is RESERVED. -/
theorem onlyTheReservedIdentifierStops : Obligations.OnlyTheReservedIdentifierStops := by
  intro i s
  rw [Ne, ← channel_eq_none_iff]
  obtain ⟨hch, _, hx⟩ | ⟨hch, _, hx⟩ | ⟨hch, _, hx⟩ | ⟨hch, hx⟩ := exec_cases i
  · exact iff_of_true ⟨_, hx s⟩ (by simp [hch])
  · exact iff_of_true ⟨_, hx s⟩ (by simp [hch])
  · exact iff_of_true ⟨_, hx s⟩ (by simp [hch])
  · exact iff_of_false (by simp [hx s]) (not_not.mpr hch)

/-! ## The error a channel reports (R203) -/

theorem errorOf_eq_some_iff (ch : Channel) (err : Bit) : errorOf ch err = some (errorKindOf ch) ↔ err = 1 := by
  simp [errorOf]

/-- An error output is one bit, so it is 0 when it is not 1. -/
theorem errorOf_eq_none_iff (ch : Channel) (err : Bit) : errorOf ch err = none ↔ err = 0 := by
  obtain rfl | rfl := BitVec.eq_zero_or_eq_one err
  · exact iff_of_true (errorOf_zero ch) rfl
  · exact iff_of_false (by simp [errorOf]) (by decide)

/-- The report of a channel whose error output is 1 exactly on the cause `P`, with the response `r` recorded. -/
theorem State.error_report {ch : Channel} {t : State} {P : Prop} {r : Response}
    (hcause : t.errBit ch = 1 ↔ P) (hrecord : P → t.sample ch = r) :
    (t.error ch = some (errorKindOf ch) ↔ P) ∧
    (t.error ch = some (errorKindOf ch) → t.sample ch = r) ∧
    (t.error ch = none ↔ t.errBit ch = 0) := by
  have hkind : t.error ch = some (errorKindOf ch) ↔ P := (errorOf_eq_some_iff ch _).trans hcause
  exact ⟨hkind, fun h => hrecord (hkind.mp h), errorOf_eq_none_iff ch _⟩

/-! ## The cause of each channel's error (R201, R202) -/

theorem sizeProbe_err_eq_one_iff (b : Byte) : (sizeProbe b).err = 1 ↔ (sizeProbe b).size = 0 :=
  errOfSize_eq_one_iff _

/-- The bytes of size 0 are the two classes of R62 that begin no sequence. -/
theorem sizeProbe_size_eq_zero_iff (b : Byte) :
    (sizeProbe b).size = 0 ↔ byteClass b = .continuation ∨ byteClass b = .malformed := by
  rw [sizeProbe_size_eq_of_range, byteClass_eq_of_range]
  split_ifs <;> simp <;> omega

theorem sizeProbe_of_size_eq_zero {b : Byte} (h : (sizeProbe b).size = 0) : sizeProbe b = ⟨0, 1⟩ := by
  rw [← h, ← (sizeProbe_err_eq_one_iff b).mpr h]

theorem decoder_of_selectDec_invalid {h : DecHigh} {p : PackedWord} (hp : selectDec h p = .invalid) :
    decoder h p = decFailure := by
  rw [decoder_eq_decFormOutputs, hp]; rfl

/-- Settles O36: each channel's error output is 1 exactly on its cause, where its function is the failure. -/
theorem errorKindsByCause : Obligations.ErrorKindsByCause := by
  intro s
  refine ⟨fun b => ⟨_, rfl, rfl, State.frame_evalSp s b _, ?_⟩,
    fun c => ⟨_, rfl, rfl, State.frame_evalEnc s c _, ?_⟩,
    fun p => ⟨_, rfl, rfl, State.frame_evalDec s p _, ?_⟩⟩
  · have hcause := (sizeProbe_err_eq_one_iff b).trans (sizeProbe_size_eq_zero_iff b)
    refine State.error_report hcause fun hb => ?_
    rw [State.evalSp_sample, sizeProbe_of_size_eq_zero ((sizeProbe_size_eq_zero_iff b).mpr hb)]
  · refine State.error_report (encoder_err_eq_one_iff c) fun hc => ?_
    rw [State.evalEnc_sample, encoder_fail hc]
    rfl
  · refine State.error_report (decoder_err_eq_one_iff pDecHigh p) fun hp => ?_
    rw [State.evalDec_sample, decoder_of_selectDec_invalid hp]
    rfl

/-! ## What a sentinel tells (R204) -/

/-- Packed 0 is U+0000 or the failure, and U+0000 is not above the range. -/
theorem encoder_err_eq_one_iff_packed (c : CodeWord) :
    (encoder c).err = 1 ↔ (encoder c).packed = 0 ∧ c ≠ 0 := by
  rw [encoder_err_eq_one_iff, encoder_packed_eq_zero_iff]
  constructor
  · intro hc
    exact ⟨.inr hc, by rintro rfl; exact absurd hc (by decide)⟩
  · rintro ⟨hzero | hc, hne⟩
    · exact absurd hzero hne
    · exact hc

/-- Settles O37: the errors are functions of the sizes; U+0000 packs to 0, and the overlong form of two bytes
decodes to it. -/
theorem sentinelAmbiguityByChannel : Obligations.SentinelAmbiguityByChannel := by
  refine ⟨sizeProbe_err_eq_one_iff, fun c => ?_, encoder_err_eq_one_iff_packed, ⟨0, rfl, rfl⟩,
    ⟨0xC080, by decide, rfl⟩⟩
  rw [encoder_err_eq_errOfSize, errOfSize_eq_one_iff]

/-! ## Several inputs driven at once (R213) -/

@[simp] theorem Phase.after_none {α β : Type} (f : α → β) (ph : Phase α β) : ph.after f none = ph := rfl
@[simp] theorem Phase.after_some {α β : Type} (f : α → β) (v : α) (ph : Phase α β) :
    ph.after f (some v) = .settled v (f v) := rfl

theorem State.spPorts_of_settled {t : State} {b : Byte} {o : SpOut} (h : t.sp = .settled b o) :
    t.spLead = some b ∧ t.sample .sp = .size o.size o.err := by
  simp [State.spLead, State.sample, State.spSize_of_settled h, State.spErr_of_settled h, h]

theorem State.encPorts_of_settled {t : State} {c : CodeWord} {o : EncOut} (h : t.enc = .settled c o) :
    t.encCp = some c ∧ t.sample .enc = .encode o.packed o.len o.err := by
  simp [State.encCp, State.sample, State.encPacked_of_settled h, State.encLen_of_settled h,
    State.encErr_of_settled h, h]

theorem State.decPorts_of_settled {t : State} {p : PackedWord} {o : DecOut} (h : t.dec = .settled p o) :
    t.decPacked = some p ∧ t.sample .dec = .decode o.cp o.err := by
  simp [State.decPacked, State.sample, State.decCp_of_settled h, State.decErr_of_settled h, h]

/-- Driving any of the inputs completes; each channel is settled on its own driven word or stays as it is. -/
theorem exists_execTogether (lead : Option Byte) (cp : Option CodeWord) (packed : Option PackedWord)
    (s : State) : ∃ t, execTogether lead cp packed s = .next t ∧ t.actions = s.actions ∧
      t.sp = s.sp.after sizeProbe lead ∧ t.enc = s.enc.after encoder cp ∧
      t.dec = s.dec.after (decoder pDecHigh) packed :=
  ⟨_, rfl, rfl, rfl, rfl, rfl⟩

/-- Settles O49: driven together or one after another, each channel is settled on its own word. -/
theorem concurrentEvaluationEqualsSequential : Obligations.ConcurrentEvaluationEqualsSequential := by
  constructor
  · intro b c p s
    obtain ⟨t, ht, hact, hsp, henc, hdec⟩ := exists_execTogether (some b) (some c) (some p) s
    have hlaunched : t.launched = true := by
      simp [State.launched, State.spPorts_of_settled hsp, State.encPorts_of_settled henc,
        State.decPorts_of_settled hdec]
    exact ⟨t, _, _, _, ht, rfl, rfl, rfl, hsp, henc, hdec, hact, hlaunched⟩
  · intro lead cp packed s
    obtain ⟨t, ht, hact, hsp, henc, hdec⟩ := exists_execTogether lead cp packed s
    refine ⟨t, ht, hact, ?_, ?_, ?_, ?_, ?_, ?_⟩
    · rintro rfl; exact hsp
    · rintro rfl; exact henc
    · rintro rfl; exact hdec
    · rintro b rfl; exact State.spPorts_of_settled hsp
    · rintro c rfl; exact State.encPorts_of_settled henc
    · rintro p rfl; exact State.decPorts_of_settled hdec

end Sys2Proof.Machine

namespace Sys2Proof.Machine

/-! # Reset and hazards (spec/70_reset_and_hazards.md)

Driving and floating a port are operations on one channel alone, so each has the frame of an evaluation
(R244). A step is the operation of the host's oldest action, and a transaction is its drive followed by
settling (R245). -/

/-! ## Driving a port (R243, R244) -/

theorem State.frame_driveSp (s : State) (b : Byte) : s.Frame .sp (s.driveSp b) := by
  simp [State.Frame]
theorem State.frame_driveEnc (s : State) (c : CodeWord) : s.Frame .enc (s.driveEnc c) := by
  simp [State.Frame]
theorem State.frame_driveDec (s : State) (p : PackedWord) : s.Frame .dec (s.driveDec p) := by
  simp [State.Frame]

/-- An instruction that completes is an evaluation of its own channel, whose frame it has. -/
theorem frame_of_exec_next {i : Instr} {s t : State} {ch : Channel} (ht : exec i s = .next t)
    (hch : i.channel = some ch) : s.Frame ch t := by
  obtain ⟨hi, b, o, rfl⟩ | ⟨hi, c, o, rfl⟩ | ⟨hi, p, o, rfl⟩ := exec_next_cases ht
  · cases hi.symm.trans hch
    exact s.frame_evalSp b o
  · cases hi.symm.trans hch
    exact s.frame_evalEnc c o
  · cases hi.symm.trans hch
    exact s.frame_evalDec p o

/-- Settles O45: the frame of an evaluation, and of the drive that begins it. -/
theorem channelsAreIsolated : Obligations.ChannelsAreIsolated :=
  ⟨fun _ _ _ _ ht hch => frame_of_exec_next ht hch,
    fun s => ⟨s.frame_driveSp, s.frame_driveEnc, s.frame_driveDec⟩⟩

@[simp] theorem State.driveSp_spLead (b : Byte) (s : State) : (s.driveSp b).spLead = some b := rfl
@[simp] theorem State.driveEnc_encCp (c : CodeWord) (s : State) : (s.driveEnc c).encCp = some c := rfl
@[simp] theorem State.driveDec_decPacked (p : PackedWord) (s : State) :
    (s.driveDec p).decPacked = some p := rfl

/-! ## A transaction (R245) -/

theorem exec_size (b : Byte) (s : State) :
    exec (.size b) s = .next ((s.driveSp b).settleSp (sizeProbe b)) := rfl
theorem exec_encode (c : CodeWord) (s : State) :
    exec (.encode c) s = .next ((s.driveEnc c).settleEnc (encoder c)) := rfl
theorem exec_decode (p : PackedWord) (s : State) :
    exec (.decode p) s = .next ((s.driveDec p).settleDec (decoder pDecHigh p)) := rfl

/-- Settles O50: a driven channel has its input and no outputs, and the transaction settles it. -/
theorem transactionDrivesThenSettles : Obligations.TransactionDrivesThenSettles := fun s =>
  ⟨fun b => ⟨s.driveSp_spLead b, Phase.outputs_settling b, exec_size b s⟩,
    fun c => ⟨s.driveEnc_encCp c, Phase.outputs_settling c, exec_encode c s⟩,
    fun p => ⟨s.driveDec_decPacked p, Phase.outputs_settling p, exec_decode p s⟩⟩

/-! ## The steps of the host's actions (R213, R241, R248) -/

/-- Settles O39: the step runs the request, and the request decodes. -/
theorem stepRunsTheDecodedInstruction : Obligations.StepRunsTheDecodedInstruction := by
  intro s r rest i hs hr
  rw [step_of_issue hs, stepRequest_of_ok hr]

theorem step_of_no_action {s : State} (h : s.actions = []) : step s = .next s.tick := by
  rw [step, h]; rfl

theorem step_of_float {s : State} {ch : Channel} {rest : List HostAction}
    (h : s.actions = .float ch :: rest) : step s = .next (State.float ch { s with actions := rest }) := by
  rw [step, h]; rfl

theorem step_of_together {s : State} {lead : Option Byte} {cp : Option CodeWord}
    {packed : Option PackedWord} {rest : List HostAction}
    (h : s.actions = .together lead cp packed :: rest) :
    step s = execTogether lead cp packed { s with actions := rest } := by
  rw [step, h]

@[simp] theorem State.float_sp (s : State) : (s.float .sp).sp = .undriven := rfl
@[simp] theorem State.float_enc (s : State) : (s.float .enc).enc = .undriven := rfl
@[simp] theorem State.float_dec (s : State) : (s.float .dec).dec = .undriven := rfl

theorem State.frame_float (s : State) (ch : Channel) : s.Frame ch (s.float ch) := by
  cases ch <;> simp [State.Frame, State.float]

/-- Settles O40: each action's step is its operation, and floating a port has that channel's frame. -/
theorem stepsOfTheHostsOtherActions : Obligations.StepsOfTheHostsOtherActions := by
  intro s rest
  refine ⟨fun _ _ _ hs => step_of_together hs, fun hs => ?_, fun ch hs => ?_⟩
  · exact ⟨s.tick, step_of_no_action hs, s.tick_sp, s.tick_enc, s.tick_dec, s.tick_actions.trans hs⟩
  · obtain ⟨hsp, henc, hdec, hactions⟩ := State.frame_float { s with actions := rest } ch
    refine ⟨_, step_of_float hs, hactions, ?_, ?_, ?_⟩
    · rintro rfl
      exact ⟨State.float_sp _, henc (by decide), hdec (by decide)⟩
    · rintro rfl
      exact ⟨hsp (by decide), State.float_enc _, hdec (by decide)⟩
    · rintro rfl
      exact ⟨hsp (by decide), henc (by decide), State.float_dec _⟩

/-! ## Reset (R240, R241) -/

/-- The input ports are read off the channels, and no channel is driven at reset. -/
theorem State.reset_inputs :
    State.reset.spLead = none ∧ State.reset.encCp = none ∧ State.reset.decPacked = none := by
  simp [State.spLead, State.encCp, State.decPacked]

/-- Settles O41: the inputs of the reset state, its list, and the reset the core is given. -/
theorem resetDrivesNoInput : Obligations.ResetDrivesNoInput := by
  obtain ⟨hsp, henc, hdec⟩ := State.reset_inputs
  exact ⟨hsp, henc, hdec, State.reset_actions, rfl⟩

end Sys2Proof.Machine

namespace Sys2Proof.Machine

/-! # Requests and instructions (spec/30_encoding.md sections 3 and 7)

A request names a channel and the word of an instruction, so an instruction is read back from its request when
its word selects its own form and the bits that the form does not fix are its operands (R63 to R66). The other
way round a decoded form is one of the word it was decoded from, and the row that took the word is what
well-formedness asks of the operands. -/

/-- Settles O35: each form drives its channel's function of its word. -/
theorem formsRefineTransactions : Obligations.FormsRefineTransactions := exec_eq_exec_asTransaction

/-! ## The operands of a word are the bits its form does not fix (R63 to R65) -/

/-- The low field of a zero extension is the value that was extended. -/
theorem extractLsb_setWidth_low {k v : Nat} (hk : k + 1 ≤ v) (x : BitVec (k + 1)) :
    (x.setWidth v).extractLsb k 0 = x :=
  (BitVec.extractLsb'_setWidth_of_le (by omega)).trans BitVec.extractLsb'_eq_self

theorem dec4Word_fields (l : BitVec 3) (c2 c3 c4 : Byte) :
    (dec4Word l c2 c3 c4).extractLsb 26 24 = l ∧ (dec4Word l c2 c3 c4).extractLsb 23 16 = c2 ∧
    (dec4Word l c2 c3 c4).extractLsb 15 8 = c3 ∧ (dec4Word l c2 c3 c4).extractLsb 7 0 = c4 := by
  simp (disch := decide) only [dec4Word, BitVec.extractLsb, BitVec.extractLsb'_append_eq_of_le,
    BitVec.extractLsb'_append_eq_of_add_le]
  simp [BitVec.extractLsb'_eq_self]

theorem dec3Word_fields (high : BitVec 8) (l : BitVec 4) (c2 c3 : Byte) :
    (dec3Word high l c2 c3).extractLsb 31 24 = high ∧ (dec3Word high l c2 c3).extractLsb 19 16 = l ∧
    (dec3Word high l c2 c3).extractLsb 15 8 = c2 ∧ (dec3Word high l c2 c3).extractLsb 7 0 = c3 := by
  simp (disch := decide) only [dec3Word, BitVec.extractLsb, BitVec.extractLsb'_append_eq_of_le,
    BitVec.extractLsb'_append_eq_of_add_le]
  simp [BitVec.extractLsb'_eq_self]

theorem dec2Word_fields (high : BitVec 16) (l : BitVec 5) (c2 : Byte) :
    (dec2Word high l c2).extractLsb 31 16 = high ∧ (dec2Word high l c2).extractLsb 12 8 = l ∧
    (dec2Word high l c2).extractLsb 7 0 = c2 := by
  simp (disch := decide) only [dec2Word, BitVec.extractLsb, BitVec.extractLsb'_append_eq_of_le,
    BitVec.extractLsb'_append_eq_of_add_le]
  simp [BitVec.extractLsb'_eq_self]

theorem dec1Word_fields (high : BitVec 24) (x : BitVec 7) :
    (dec1Word high x).extractLsb 31 8 = high ∧ (dec1Word high x).extractLsb 6 0 = x := by
  simp (disch := decide) only [dec1Word, BitVec.extractLsb, BitVec.extractLsb'_append_eq_of_le,
    BitVec.extractLsb'_append_eq_of_add_le]
  simp [BitVec.extractLsb'_eq_self]

/-! ## A word decodes to the form it was written from

Each proof finds the row that takes the word and reads the operands off the word. -/

theorem decodeSpWord_sp4Word (x : BitVec 3) : decodeSpWord (sp4Word x) = .sp4 x := by
  rw [decodeSpWord, selectSp_eq_of_range, sp4Word_toNat, if_pos (by omega)]
  exact congrArg Instr.sp4 BitVec.extractLsb'_append_eq_right

theorem decodeSpWord_sp3Word (x : BitVec 4) : decodeSpWord (sp3Word x) = .sp3 x := by
  rw [decodeSpWord, selectSp_eq_of_range, sp3Word_toNat, if_neg (by omega), if_pos (by omega)]
  exact congrArg Instr.sp3 BitVec.extractLsb'_append_eq_right

theorem decodeSpWord_sp2Word (x : BitVec 5) : decodeSpWord (sp2Word x) = .sp2 x := by
  rw [decodeSpWord, selectSp_eq_of_range, sp2Word_toNat, if_neg (by omega), if_neg (by omega),
    if_pos (by omega)]
  exact congrArg Instr.sp2 BitVec.extractLsb'_append_eq_right

theorem decodeSpWord_sp1Word (x : BitVec 7) : decodeSpWord (sp1Word x) = .sp1 x := by
  rw [decodeSpWord, selectSp_eq_of_range, sp1Word_toNat, if_neg (by omega), if_neg (by omega),
    if_neg (by omega), if_pos (by omega)]
  exact congrArg Instr.sp1 BitVec.extractLsb'_append_eq_right

theorem decodeSpWord_spInvContWord (x : BitVec 6) : decodeSpWord (spInvContWord x) = .spInvCont x := by
  rw [decodeSpWord, selectSp_eq_of_range, spInvContWord_toNat, if_neg (by omega), if_neg (by omega),
    if_neg (by omega), if_neg (by omega), if_pos (by omega)]
  exact congrArg Instr.spInvCont BitVec.extractLsb'_append_eq_right

theorem decodeSpWord_spInvMalformedWord (x : BitVec 3) :
    decodeSpWord (spInvMalformedWord x) = .spInvMalformed x := by
  rw [decodeSpWord, selectSp_eq_of_range, spInvMalformedWord_toNat, if_neg (by omega), if_neg (by omega),
    if_neg (by omega), if_neg (by omega), if_neg (by omega)]
  exact congrArg Instr.spInvMalformed BitVec.extractLsb'_append_eq_right

theorem decodeEncWord_enc1Word (c : BitVec 7) : decodeEncWord (enc1Word c) = .enc1 c := by
  rw [decodeEncWord, selectEnc_eq_of_range, enc1Word_toNat, if_pos (by omega)]
  exact congrArg Instr.enc1 (extractLsb_setWidth_low (by decide) c)

theorem decodeEncWord_enc2Word {c : BitVec 11} (hc : 0x80 ≤ c.toNat) :
    decodeEncWord (enc2Word c) = .enc2 c := by
  rw [decodeEncWord, selectEnc_eq_of_range, enc2Word_toNat, if_neg (by omega), if_pos (by omega)]
  exact congrArg Instr.enc2 (extractLsb_setWidth_low (by decide) c)

theorem decodeEncWord_enc3Word {c : BitVec 16} (hc : 0x800 ≤ c.toNat) :
    decodeEncWord (enc3Word c) = .enc3 c := by
  rw [decodeEncWord, selectEnc_eq_of_range, enc3Word_toNat, if_neg (by omega), if_neg (by omega),
    if_pos (by omega)]
  exact congrArg Instr.enc3 (extractLsb_setWidth_low (by decide) c)

theorem decodeEncWord_enc4LowWord {c : BitVec 20} (hc : 0x10000 ≤ c.toNat) :
    decodeEncWord (enc4LowWord c) = .enc4Low c := by
  rw [decodeEncWord, selectEnc_eq_of_range, enc4LowWord_toNat, if_neg (by omega), if_neg (by omega),
    if_neg (by omega), if_pos (by omega)]
  exact congrArg Instr.enc4Low (extractLsb_setWidth_low (by decide) c)

theorem decodeEncWord_enc4HighWord (c : BitVec 16) : decodeEncWord (enc4HighWord c) = .enc4High c := by
  rw [decodeEncWord, selectEnc_eq_of_range, enc4HighWord_toNat, if_neg (by omega), if_neg (by omega),
    if_neg (by omega), if_neg (by omega), if_pos (by omega)]
  exact congrArg Instr.enc4High BitVec.extractLsb'_append_eq_right

theorem decodeEncWord_of_fail {c : CodeWord} (hc : 0x10FFFF < c.toNat) : decodeEncWord c = .encFail c := by
  rw [decodeEncWord, selectEnc_eq_of_range, if_neg (by omega), if_neg (by omega), if_neg (by omega),
    if_neg (by omega), if_neg (by omega)]

theorem decodeDecWord_dec4Word (h : DecHigh) (l : BitVec 3) (c2 c3 c4 : Byte) :
    decodeDecWord h (dec4Word l c2 c3 c4) = .dec4 l c2 c3 c4 := by
  obtain ⟨hl, h2, h3, h4⟩ := dec4Word_fields l c2 c3 c4
  simp only [decodeDecWord, selectDec_eq_of_tests, decTest4_dec4Word, if_true, hl, h2, h3, h4]

theorem decodeDecWord_dec3Word {h : DecHigh} {high : BitVec 8} {l : BitVec 4} {c2 c3 : Byte}
    (hwf : Instr.wellFormed h (.dec3 high l c2 c3) = true) :
    decodeDecWord h (dec3Word high l c2 c3) = .dec3 high l c2 c3 := by
  obtain ⟨hhigh, hl, h2, h3⟩ := dec3Word_fields high l c2 c3
  simp only [wellFormed_dec3, Bool.and_eq_true, Bool.not_eq_true'] at hwf
  simp [decodeDecWord, selectDec_eq_of_tests, hwf, hhigh, hl, h2, h3]

theorem decodeDecWord_dec2Word {h : DecHigh} {high : BitVec 16} {l : BitVec 5} {c2 : Byte}
    (hwf : Instr.wellFormed h (.dec2 high l c2) = true) :
    decodeDecWord h (dec2Word high l c2) = .dec2 high l c2 := by
  obtain ⟨hhigh, hl, h2⟩ := dec2Word_fields high l c2
  simp only [wellFormed_dec2, Bool.and_eq_true, Bool.not_eq_true'] at hwf
  simp [decodeDecWord, selectDec_eq_of_tests, hwf, hhigh, hl, h2]

theorem decodeDecWord_dec1Word {h : DecHigh} {high : BitVec 24} {x : BitVec 7}
    (hwf : Instr.wellFormed h (.dec1 high x) = true) :
    decodeDecWord h (dec1Word high x) = .dec1 high x := by
  obtain ⟨hhigh, hx⟩ := dec1Word_fields high x
  simp only [wellFormed_dec1, Bool.and_eq_true, Bool.not_eq_true'] at hwf
  simp [decodeDecWord, selectDec_eq_of_tests, hwf, hhigh, hx]

theorem decodeDecWord_of_invalid {h : DecHigh} {p : PackedWord}
    (hwf : Instr.wellFormed h (.decInv p) = true) : decodeDecWord h p = .decInv p := by
  simp only [wellFormed_decInv, Bool.and_eq_true, Bool.not_eq_true'] at hwf
  simp [decodeDecWord, selectDec_eq_of_tests, hwf]

/-! ## Requests of an instruction (R70, R72) -/

/-- A port's own value is read through the port, whatever reads it. -/
theorem map_fitPort_toNat {α : Type} (ch : Channel) {w : Nat} {f : BitVec w → α} {v : BitVec w} {a : α}
    (hf : f v = a) : (fitPort ch w v.toNat).map f = .ok a := by
  rw [fitPort_toNat, ← hf]; rfl

/-- Settles O5: a transaction's operand is read through its port, and a form's word selects the form. -/
theorem decodeOfEncodeIsIdentity : Obligations.DecodeOfEncodeIsIdentity := by
  intro h i hwf
  cases i with
  | size lead => exact map_fitPort_toNat .sp rfl
  | encode cp => exact map_fitPort_toNat .enc rfl
  | decode packed => exact map_fitPort_toNat .dec rfl
  | reserved => rfl
  | sp4 x => exact map_fitPort_toNat .sp (decodeSpWord_sp4Word x)
  | sp3 x => exact map_fitPort_toNat .sp (decodeSpWord_sp3Word x)
  | sp2 x => exact map_fitPort_toNat .sp (decodeSpWord_sp2Word x)
  | sp1 x => exact map_fitPort_toNat .sp (decodeSpWord_sp1Word x)
  | spInvCont x => exact map_fitPort_toNat .sp (decodeSpWord_spInvContWord x)
  | spInvMalformed x => exact map_fitPort_toNat .sp (decodeSpWord_spInvMalformedWord x)
  | enc1 c => exact map_fitPort_toNat .enc (decodeEncWord_enc1Word c)
  | enc2 c => exact map_fitPort_toNat .enc (decodeEncWord_enc2Word (of_decide_eq_true hwf))
  | enc3 c => exact map_fitPort_toNat .enc (decodeEncWord_enc3Word (of_decide_eq_true hwf))
  | enc4Low c => exact map_fitPort_toNat .enc (decodeEncWord_enc4LowWord (of_decide_eq_true hwf))
  | enc4High c => exact map_fitPort_toNat .enc (decodeEncWord_enc4HighWord c)
  | encFail c => exact map_fitPort_toNat .enc (decodeEncWord_of_fail (of_decide_eq_true hwf))
  | dec4 l c2 c3 c4 => exact map_fitPort_toNat .dec (decodeDecWord_dec4Word h l c2 c3 c4)
  | dec3 high l c2 c3 => exact map_fitPort_toNat .dec (decodeDecWord_dec3Word hwf)
  | dec2 high l c2 => exact map_fitPort_toNat .dec (decodeDecWord_dec2Word hwf)
  | dec1 high x => exact map_fitPort_toNat .dec (decodeDecWord_dec1Word hwf)
  | decInv p => exact map_fitPort_toNat .dec (decodeDecWord_of_invalid hwf)

/-- Settles O4: each word is the encoding of the instruction it stands for. -/
theorem wordsWrittenOutDecode : Obligations.WordsWrittenOutDecode :=
  have read := decodeOfEncodeIsIdentity pDecHigh
  ⟨read (.size 0xE2) rfl, read (.sp4 0b101) rfl, read (.spInvCont 0b100101) rfl, read (.enc2 0x7FF) rfl,
    read (.enc4High 0xFFFF) rfl, read (.dec4 0 0x90 0x8D 0x88) rfl, read (.dec2 0 0b10000 0x98) rfl⟩

/-! ## The form of a word is well formed and keeps every bit of it (R66) -/

theorem wellFormed_decodeSpWord (h : DecHigh) (b : Byte) : (decodeSpWord b).wellFormed h = true := by
  unfold decodeSpWord
  cases selectSp b <;> rfl

/-- A row of ENC takes what no earlier one did, so the operand is at least the earlier rows' bound. -/
theorem wellFormed_decodeEncWord (h : DecHigh) (c : CodeWord) : (decodeEncWord c).wellFormed h = true := by
  rw [decodeEncWord, selectEnc_eq_of_range]
  split_ifs
  · rfl
  · refine decide_eq_true ?_
    rw [Bits.toNat_extractLsb_div]; omega
  · refine decide_eq_true ?_
    rw [Bits.toNat_extractLsb_div]; omega
  · refine decide_eq_true ?_
    rw [Bits.toNat_extractLsb_div]; omega
  · rfl
  · refine decide_eq_true ?_
    omega

/-- The operands make the word again, so they are well formed by the tests that selected the form. -/
theorem wellFormed_decodeDecWord (h : DecHigh) (p : PackedWord) :
    (decodeDecWord h p).wellFormed h = true := by
  have hword := decodeDecWord_asTransaction h p
  rw [decodeDecWord, selectDec_eq_of_tests] at hword ⊢
  split_ifs at hword ⊢ with h4 h3 h2 h1
  · rfl
  · rw [wellFormed_dec3, Instr.decode.inj hword]; simp [h4, h3]
  · rw [wellFormed_dec2, Instr.decode.inj hword]; simp [h4, h3, h2]
  · rw [wellFormed_dec1, Instr.decode.inj hword]; simp [h4, h3, h2, h1]
  · rw [wellFormed_decInv]; simp [h4, h3, h2, h1]

theorem encodeRequest_decodeSpWord (b : Byte) : encodeRequest (decodeSpWord b) = .drive .sp b.toNat := by
  have hword := decodeSpWord_asTransaction b
  unfold decodeSpWord at hword ⊢
  generalize selectSp b = form at hword ⊢
  cases form <;> exact congrArg (fun w : Byte => Request.drive .sp w.toNat) (Instr.size.inj hword)

theorem encodeRequest_decodeEncWord (c : CodeWord) :
    encodeRequest (decodeEncWord c) = .drive .enc c.toNat := by
  have hword := decodeEncWord_asTransaction c
  unfold decodeEncWord at hword ⊢
  generalize selectEnc c = form at hword ⊢
  cases form <;> exact congrArg (fun w : CodeWord => Request.drive .enc w.toNat) (Instr.encode.inj hword)

theorem encodeRequest_decodeDecWord (h : DecHigh) (p : PackedWord) :
    encodeRequest (decodeDecWord h p) = .drive .dec p.toNat := by
  have hword := decodeDecWord_asTransaction h p
  unfold decodeDecWord at hword ⊢
  generalize selectDec h p = form at hword ⊢
  cases form <;> exact congrArg (fun w : PackedWord => Request.drive .dec w.toNat) (Instr.decode.inj hword)

/-! ## What a request that decodes can be (R70, R72) -/

theorem exists_of_map_fitPort_eq_ok {α : Type} {ch : Channel} {w n : Nat} {f : BitVec w → α} {a : α}
    (hf : (fitPort ch w n).map f = .ok a) : ∃ v : BitVec w, n = v.toNat ∧ a = f v := by
  cases hv : fitPort ch w n with
  | error e => rw [hv] at hf; cases hf
  | ok v =>
    rw [hv] at hf
    cases hf
    exact ⟨v, (fitPort_ok_iff ch v).mp hv, rfl⟩

/-- A request that decodes is a transaction of an operand that fits its port, RESERVED, or a word that fits the
port it is driven on. -/
theorem decodeRequestUnder_ok_cases {h : DecHigh} {r : Request} {i : Instr}
    (hr : decodeRequestUnder h r = .ok i) :
    (∃ b : Byte, r = .transact 0 b.toNat ∧ i = .size b) ∨
    (∃ c : CodeWord, r = .transact 1 c.toNat ∧ i = .encode c) ∨
    (∃ p : PackedWord, r = .transact 2 p.toNat ∧ i = .decode p) ∨
    (∃ n, r = .transact 3 n ∧ i = .reserved) ∨
    (∃ b : Byte, r = .drive .sp b.toNat ∧ i = decodeSpWord b) ∨
    (∃ c : CodeWord, r = .drive .enc c.toNat ∧ i = decodeEncWord c) ∨
    (∃ p : PackedWord, r = .drive .dec p.toNat ∧ i = decodeDecWord h p) := by
  match r with
  | .transact 0 n =>
    obtain ⟨b, rfl, rfl⟩ := exists_of_map_fitPort_eq_ok hr
    exact .inl ⟨b, rfl, rfl⟩
  | .transact 1 n =>
    obtain ⟨c, rfl, rfl⟩ := exists_of_map_fitPort_eq_ok hr
    exact .inr (.inl ⟨c, rfl, rfl⟩)
  | .transact 2 n =>
    obtain ⟨p, rfl, rfl⟩ := exists_of_map_fitPort_eq_ok hr
    exact .inr (.inr (.inl ⟨p, rfl, rfl⟩))
  | .transact 3 n =>
    cases hr
    exact .inr (.inr (.inr (.inl ⟨n, rfl, rfl⟩)))
  | .drive .sp n =>
    obtain ⟨b, rfl, rfl⟩ := exists_of_map_fitPort_eq_ok hr
    exact .inr (.inr (.inr (.inr (.inl ⟨b, rfl, rfl⟩))))
  | .drive .enc n =>
    obtain ⟨c, rfl, rfl⟩ := exists_of_map_fitPort_eq_ok hr
    exact .inr (.inr (.inr (.inr (.inr (.inl ⟨c, rfl, rfl⟩)))))
  | .drive .dec n =>
    obtain ⟨p, rfl, rfl⟩ := exists_of_map_fitPort_eq_ok hr
    exact .inr (.inr (.inr (.inr (.inr (.inr ⟨p, rfl, rfl⟩)))))

/-- Settles O6: a transaction keeps its operand, and a form's word is the word that was driven. -/
theorem decodedRequestEncodesBack : Obligations.DecodedRequestEncodesBack := by
  intro h r i hr
  obtain ⟨b, rfl, rfl⟩ | ⟨c, rfl, rfl⟩ | ⟨p, rfl, rfl⟩ | ⟨n, rfl, rfl⟩ | ⟨b, rfl, rfl⟩ | ⟨c, rfl, rfl⟩ |
    ⟨p, rfl, rfl⟩ := decodeRequestUnder_ok_cases hr
  · exact ⟨rfl, fun _ => rfl⟩
  · exact ⟨rfl, fun _ => rfl⟩
  · exact ⟨rfl, fun _ => rfl⟩
  · exact ⟨rfl, fun hne => absurd rfl hne⟩
  · exact ⟨wellFormed_decodeSpWord h b, fun _ => encodeRequest_decodeSpWord b⟩
  · exact ⟨wellFormed_decodeEncWord h c, fun _ => encodeRequest_decodeEncWord c⟩
  · exact ⟨wellFormed_decodeDecWord h p, fun _ => encodeRequest_decodeDecWord h p⟩

end Sys2Proof.Machine
